-- ==== Sys2Proof/Word.lean ====
section
/-! DEFINITION. Words of the device: the byte, the F36 word, the 72-bit native word, and the type of
sparse maps by number (00_scope "Conventions", R5, R7, R12). -/
namespace Sys2Proof

/-- A byte of a descriptor, structure or frame (R12: little-endian in host memory). -/
abbrev Byte := BitVec 8

/-- The encoding of an F36 value: sign [35], exponent [34:27], fraction [26:0] (R5). -/
abbrev F36 := BitVec 36

/-- The native word of 72 bits: two F36 halves or three 24-bit PCM lanes (00_scope "Conventions"). -/
abbrev Word72 := BitVec 72

/-- Sparse data by number, in ONE canonical form (`SMap.wf`): keys strictly rising, no entry equal to
what an unlisted key reads as. `Machine/Maps.lean` holds its operations. -/
abbrev SMap (α : Type) := List (Nat × α)

end Sys2Proof
end

