-- ==== Sys2Proof/Machine/Types.lean ====
section
/-! DEFINITION. The records of which the state and the commands are built: one object, one output, one
route, one stream slot and so on. They stand below `Syntax.lean` because a resynchronisation message
(R237) carries whole records of the state. -/
namespace Sys2Proof.Machine

/-- Rendering law of an object (R49). -/
inductive Law where
  | off | dist | wfs | vbap | table | direct
deriving DecidableEq, Repr

/-- Source of an object's motion state (R52). -/
inductive MdSrc where
  | ring | stream | command
deriving DecidableEq, Repr

/-- Motion state of an object: position in mm (R10), size, gain, law and flags (R46, R48, R50). -/
structure Motion where
  x : Int := 0
  y : Int := 0
  z : Int := 0
  size : Nat := 0
  gain : F36 := 0x3F8000000#36
  law : Law := .off
  mute : Bool := false
  jump : Bool := false
deriving DecidableEq, Repr

/-- A metadata record that waits for its seal: its stamp and the motion state it carries, and whether its
GAIN was clamped (R51, R54). -/
structure PendRec where
  stamp : BitVec 32
  m : Motion
  clamped : Bool := false
  /-- Hub whose stream carried it: 1 A, 2 B, 0 none (R57). -/
  hub : Nat := 0
  /-- The source that it came from (R52). -/
  src : MdSrc := .ring
deriving DecidableEq, Repr

/-- Static parameters of an object (R47), at their range-line defaults. -/
structure ObjParams where
  mdSrc : MdSrc := .command
  zoneMask : BitVec 32 := 0xFFFFFFFF#32
  rRef : Nat := 10000
  rMin : Nat := 1000
  wfsDref : Nat := 10000
  dlyMode : Bool := false
  objBulk : Nat := 0
  staleFrames : Nat := 600
deriving DecidableEq, Repr

/-- The crossfade of a route whose source changed (R137): the old source and gain, the new gain, the frame
`q` of it that renders next and its length `m`. -/
structure XFade where
  oldSrc : Nat
  gOld : F36
  gNew : F36
  q : Nat
  m : Nat
deriving DecidableEq, Repr

/-- The route of one destination (R136): source ID, route gain, crossfade length. -/
structure RouteCfg where
  src : Nat := 0
  gain : F36 := 0x3F8000000#36
  xf : Nat := 1
deriving DecidableEq, Repr

/-- A route with what its destination's tasks need: `app` as the commands applied so far leave it, `live`
for the input frame whose tasks run, `prev` for the frame before, and the crossfade that runs (R137). -/
structure RouteState where
  app : RouteCfg := {}
  live : RouteCfg := {}
  prev : RouteCfg := {}
  fade : Option XFade := none
deriving DecidableEq, Repr

/-- A biquad section's coefficients B0, B1, B2, A1, A2 (R153, R154). -/
structure Biq where
  b0 : F36 := 0
  b1 : F36 := 0
  b2 : F36 := 0
  a1 : F36 := 0
  a2 : F36 := 0
deriving DecidableEq, Repr

/-- A biquad section's states s1, s2 (R153). -/
structure BiqSt where
  s1 : F36 := 0
  s2 : F36 := 0
deriving DecidableEq, Repr

/-- An unfilled gap of a window (R96): labels counted back from label −1 of the frame now held: the labels
from `−oldest` to `−oldest + left − 1` hold no audio yet. -/
structure Gap where
  oldest : Nat
  left : Nat
deriving DecidableEq, Repr

/-- Everything the device holds of one object (chapters 02, 03, 04). -/
structure ObjState where
  params : ObjParams := {}
  motion : Motion := {}
  /-- Records waiting for their seal (R54). -/
  pend : List PendRec := []
  /-- Latest sealed stamp (R54). -/
  sealed : Option (BitVec 32) := none
  staleCount : Nat := 0
  stale : Bool := false
  /-- Records and commands ignored because they came from another source (R52). -/
  ignored : Nat := 0
  /-- Flags of R83 bits 2 (record clamp), 4 and 6 that arose since the last evaluation. -/
  recClamp : Bool := false
  mdLate : Bool := false
  mdBad : Bool := false
  /-- Late and bad records of a hub's stream since the last seal, by hub: they count where the hub is selected (R57). -/
  lateBy : List Nat := []
  badBy : List Nat := []
  /-- Remembered winners of directions q0 to q4 (R78). -/
  vbapWin : List (Option Nat) := [none, none, none, none, none]
  /-- Flag word of the last evaluation and of the one before (R83, R84). -/
  geoFlags : BitVec 7 := 0
  geoPrev : BitVec 7 := 0
  /-- First outputs of DLY_LOW, DLY_HIGH, GAIN_CLAMP (R83), 0xFFFF for none. -/
  firstLow : Nat := 0xFFFF
  firstHigh : Nat := 0xFFFF
  firstClamp : Nat := 0xFFFF
  /-- Frames until the next GEO_FLAG and XPE_FLAG event may be raised (R84, R118). -/
  geoWait : Nat := 0
  xpeWait : Nat := 0
  /-- Canonical record of the last frame (R56). -/
  canon : Motion := {}
  route : RouteState := {}
  /-- OBJ_BULK as used by the ingress task of the running frame and of the frame before (R95). -/
  bulkLive : Nat := 0
  bulkPrev : Nat := 0
  /-- Window: base slot, history depth, PENDING, gap, and the depth of the bulk line (R90 to R96, R98). -/
  winB : Nat := 0
  winHD : Nat := 0
  /-- A frame has been written since rendering, or the function, started: HD counts from the frame after it (R92). -/
  winOn : Bool := false
  pendJump : Bool := false
  gap : Option Gap := none
  bulkDepth : Nat := 0
  /-- The object's bulk-delay line: PCM by global sample index (R93, R94). -/
  bulkLine : SMap Int := []
  xpeFlags : BitVec 4 := 0
  xpePrev : BitVec 4 := 0
  /-- WFS pre-filter states of its two sections, and whether the last frame's law was WFS (R141). -/
  wfs0 : BiqSt := {}
  wfs1 : BiqSt := {}
  wfsOn : Bool := false
  /-- The frame's PCM as re-emitted (R421) and whether the ingress task of the frame has run (R114). -/
  reemit : List Int := []
  written : Bool := false
deriving DecidableEq, Repr

/-- Run-time configuration of one output (R151) with its active coefficient banks (R161). -/
structure OutCfg where
  trim : F36 := 0x3F8000000#36
  pol : Bool := false
  mute : Bool := false
  gainRamp : Nat := 6
  biqEn : Bool := false
  xoEn : Bool := false
  convEn : Bool := false
  limEn : Bool := false
  dchpEn : Bool := true
  /-- `none` is the default: the chain's own index (R151). -/
  xoSrc : Option Nat := none
  outBulk : Nat := 0
  pkThr : F36 := 0x3F8000000#36
  /-- `none` is the default given as a function of fs (R151), held in read-only memory. -/
  pkRel : Option F36 := none
  rmsThr : F36 := 0x3F8000000#36
  rmsA : Option F36 := none
  rmsAtt : Option F36 := none
  rmsRel : Option F36 := none
  dither : Bool := true
  outWl : Nat := 24
  busAlign : Bool := false
  biq : List Biq := []
  xo : List Biq := []
  taps : List F36 := []
  /-- Which of its two banks is active in each block: a load swaps them (R161). -/
  biqBank : Bool := false
  xoBank : Bool := false
  convBank : Bool := false
deriving DecidableEq, Repr

/-- The WFS pre-filter coefficients (R141): the active bank, and the loaded coefficients (none: the read-only
default for the rate). -/
structure WfsCoef where
  bank : Bool := false
  coef : Option (Biq × Biq) := none
deriving DecidableEq, Repr

/-- Limiter states e, gr, gp (R168). -/
structure LimSt where
  e : F36 := 0
  gr : F36 := 0x3F8000000#36
  gp : F36 := 0x3F8000000#36
deriving DecidableEq, Repr

/-- A running gain ramp (R152): start gain, target, frame `q` that renders next, length in frames. -/
structure GainRamp where
  gc : F36
  gt : F36
  q : Nat
  m : Nat
deriving DecidableEq, Repr

/-- The state of a chain that its FRONT and BACK tasks carry from frame to frame (R44, R152 to R169). -/
structure ChainDsp where
  /-- Gain in force at the last sample rendered; `none` before the first frame (R44: no ramp). -/
  gain : Option F36 := none
  ramp : Option GainRamp := none
  biqSt : List BiqSt := []
  xoSt : List BiqSt := []
  busHist : List F36 := []
  lim : LimSt := {}
  dchp : BiqSt := {}
  bulkDepth : Nat := 0
deriving DecidableEq, Repr

/-- Everything the device holds of one output (chapters 01 and 05). -/
structure OutState where
  app : OutCfg := {}
  live : OutCfg := {}
  prev : OutCfg := {}
  route : RouteState := {}
  dsp : ChainDsp := {}
  /-- Output bulk-delay line by global sample index (R167). -/
  bulkLine : SMap F36 := []
  /-- Staging banks of the biquad, crossover and convolution blocks (R161); the active ones stand in `app`. -/
  stgBiq : List Biq := []
  stgXo : List Biq := []
  stgTaps : List F36 := []
  /-- Convolution input history by global sample index, and the index after its latest sample (R158). -/
  convHist : SMap F36 := []
  convEnd : Nat := 0
  /-- Another master wrote into the slot, whose layout is internal (R160): the convolution's output is open. -/
  slotLost : Bool := false
  /-- An operation that produced the running frame was abandoned: the frame is an overrun (R378). -/
  failed : Bool := false
  /-- Crosspoint sum delivered by the reduction tree for the running frame (R112). -/
  xsum : Option (List F36) := none
  /-- Output of block 3 (biquads) of the running frame, for chains fed by XO_SRC (R155). -/
  block3 : Option (List F36) := none
  /-- Input of block 5 of the running frame, and the convolution's output (R158). -/
  convIn : Option (List F36) := none
  convOut : Option (List F36) := none
  /-- Block-8 frame and PCM frame of the running frame, when BACK has run (R148). -/
  blk8 : Option (List F36) := none
  pcm : Option (List Int) := none
  /-- Last emitted sample value, on-time frames of a silent output (`none`: not silent), OVERRUN count (R41 to R43). -/
  lastV : F36 := 0
  silent : Option Nat := none
  /-- The next launched frame fades in (R42). -/
  recover : Bool := false
  overruns : Nat := 0
  /-- Last launched frame: block-8 values and PCM (R25). -/
  emit8 : List F36 := []
  emitPcm : List Int := []
  /-- OUT_CLIP (R171) and the meters of R178. -/
  clip : Nat := 0
  peak : F36 := 0
  sumSq : F36 := 0
  samples : Nat := 0
  minGain : F36 := 0x3F8000000#36
  /-- Ceilings PROT_PK and PROT_MS for the limiter of the running frame (R168, R215). -/
  protPk : F36 := 0x3F8000000#36
  protMs : F36 := 0x3F8000000#36
deriving DecidableEq, Repr

/-- A crosspoint: current state, two target banks, kind of the last rendered frame (R98, R100). -/
structure XPoint where
  dCur : Nat := 0
  gCur : F36 := 0
  d0 : Nat := 0
  g0 : F36 := 0
  j0 : Bool := false
  d1 : Nat := 0
  g1 : F36 := 0
  j1 : Bool := false
  kind : Nat := 0
  /-- D_T and G_T of the last rendered frame (R100). -/
  dLast : Nat := 0
  gLast : F36 := 0
deriving DecidableEq, Repr

/-- A speaker entry (R61). -/
structure Speaker where
  x : Int := 0
  y : Int := 0
  z : Int := 0
  laws : Byte := 0
  tabCol : Byte := 0
  zoneMask : BitVec 32 := 0
  nx : F36 := 0
  ny : F36 := 0
  nz : F36 := 0
  gainTrim : F36 := 0
  dlyTrim : F36 := 0
deriving DecidableEq, Repr

/-- A triangle entry (R64); `inv` holds INV[r][c] row-major. -/
structure Triangle where
  a : Nat := 0
  b : Nat := 0
  c : Nat := 0
  valid : Bool := false
  inv : List F36 := []
deriving DecidableEq, Repr

/-- A receive stream slot with its run-time parameters (R292, R122, R125, R415). FORMAT 0 is off. -/
structure RxSlot where
  format : Nat := 0
  paths : Nat := 0
  hub : Nat := 0
  ch : Nat := 0
  base : Nat := 0
  streamId : BitVec 64 := 0
  rtpOff : BitVec 32 := 0
  /-- `none`: the default of the format (0 for AAF, 6 for AES67). -/
  rxOffset : Option Nat := none
  holdMax : Nat := 2
  revive : Nat := 6
deriving DecidableEq, Repr

/-- A transmit stream slot (R292, R415). FORMAT 0 is off. -/
structure TxSlot where
  format : Nat := 0
  paths : Nat := 0
  ch : Nat := 0
  first : Nat := 0
  streamId : BitVec 64 := 0
  dest : BitVec 48 := 0
  vlan : BitVec 16 := 0
deriving DecidableEq, Repr

/-- Counters of a receive slot (R294 STREAM). -/
structure RxCounters where
  early : Nat := 0
  late : Nat := 0
  lost0 : Nat := 0
  lost1 : Nat := 0
  mismatch : Nat := 0
  held : Nat := 0
  faded : Nat := 0
  substituted : Nat := 0
  switchScarf : Nat := 0
deriving DecidableEq, Repr

/-- Samples received for one frame of one channel: slot j holds the PCM received, if any (R122). -/
structure RxFrame where
  frame : BitVec 32
  slots : List (Option Int)
deriving DecidableEq, Repr

/-- The samples a receive channel holds per path (R122, R124). -/
structure RxBuf where
  p0 : List RxFrame := []
  p1 : List RxFrame := []
deriving DecidableEq, Repr

/-- A source channel's concealment state (R125): LIVE or MUTED, the streak of complete frames, the last sample,
and the latest sealed frame with whether it was complete (R245, R246). -/
structure RxChan where
  live : Bool := false
  streak : Nat := 0
  last : Option F36 := none
  complete : Bool := false
  /-- Received samples of the frame just sealed, before the rules of R125. -/
  raw : List F36 := []
  /-- What the frame became. -/
  frame : List F36 := []
deriving DecidableEq, Repr

/-- A slot's sequence state per path, and the limits of its events (R417, R124, R125). -/
structure RxSeq where
  seq0 : Option Byte := none
  seq1 : Option Byte := none
  /-- sp = 1 packets: where the next packet of each path continues (R418): frame and index. -/
  next0 : Option (BitVec 32 × Nat) := none
  next1 : Option (BitVec 32 × Nat) := none
  /-- Sequence numbers of the last 128 packets taken on each path (R417); of metadata packets on either (R124). -/
  taken0 : List Byte := []
  taken1 : List Byte := []
  muteWait : Nat := 0
  mismatchWait : Nat := 0
deriving DecidableEq, Repr

/-- A sink assignment (R292): KIND 1 AES3 subframe, 2 AOUT ring channel, 3 transmit-stream channel. -/
structure SinkAsg where
  out : Nat
  kind : Nat
  sink : Nat
  chan : Nat
deriving DecidableEq, Repr

/-- Global state that stage INGRESS of a resynchronisation copies (R237): T_CUR and its slew. -/
structure TempSlew where
  tSet : F36 := 0x41A000000#36
  tCur : F36 := 0x41A000000#36
  delta : F36 := 0
  left : Nat := 0
deriving DecidableEq, Repr

/-- Configuration of a direct path (R144). -/
structure DpCfg where
  en : Bool := false
  src : Nat := 0
  sink : Nat := 0
  gain : F36 := 0x3F8000000#36
  hp : Nat := 0
  thr : F36 := 0x3F8000000#36
  rel : Option F36 := none
deriving DecidableEq, Repr

/-- A threshold detector's parameters and state (R208). -/
structure Detector where
  mode : Nat := 0
  thr : Option F36 := none
  hys : F36 := 0x3C23D70A4#36
  hold : Nat := 6
  act : Nat := 0
  mask : BitVec 16 := 0
  asserted : Bool := false
  below : Nat := 0
deriving DecidableEq, Repr

/-- A decimation chain (R205 to R209). `none` for CIC_DEC, HB_COUNT and HPF_EN is the range-line default. -/
structure Dec where
  bsRate : Nat := 0
  cicOrder : Nat := 4
  cicDec : Option Nat := none
  hbCount : Option Nat := none
  firGd : Nat := 31
  /-- Loaded compensation FIR, none for the read-only default (R206), and the set that is staged (R291). -/
  fir : Option (List F36) := none
  firStg : List F36 := []
  hpfEn : Option Bool := none
  /-- Started by DEC_RUN (R133); reserved chains run with rendering (R180). -/
  started : Bool := false
  running : Bool := false
  /-- CIC integrators and combs, bits left over, half-band and FIR histories, high-pass state. -/
  integ : List Int := []
  comb : List Int := []
  phase : Nat := 0
  hbHist : List (List F36) := []
  hbPhase : List Nat := []
  firHist : List F36 := []
  hpSt : BiqSt := {}
  /-- Last frame before fades (trimmed samples) and the fade of the next frame: 1 in, 2 out (R133). -/
  frame : List F36 := []
  /-- The frame its source delivers, after fades. -/
  out : List F36 := []
  fade : Nat := 0
  /-- A function reset (R209): 0 none, 1 the next frame fades out, 2 filling, 3 filled; frames of fill left; the
  command's number. -/
  reset : Nat := 0
  fill : Nat := 0
  resetUid : Option (BitVec 32) := none
  /-- Equal bits in a row and their level (R207); the level of a run that has reached 4,096 and is not yet reported; stuck as
  last reported. -/
  eqBits : Nat := 0
  level : Bool := false
  stuckRun : Option Bool := none
  stuck : Bool := false
  hi : Detector := {}
  lo : Detector := {}
  /-- Host calibration GAIN_U, OFS_U (R210, R518). -/
  gainU : F36 := 0x3F8000000#36
  ofsU : F36 := 0
deriving DecidableEq, Repr

/-- One copied item of a resynchronisation (R237), with the record it carries. -/
inductive ResyncItem where
  /-- The digests of the items of stage CONFIG, by key. -/
  | digests (l : List (Nat × BitVec 64))
  | spk (t : SMap Speaker)
  | tri (t : SMap Triangle)
  /-- One column of the direction gain table. -/
  | dirtab (col : Nat) (t : SMap F36)
  /-- The DIRECT value set of an object. -/
  | direct (o : Nat) (t : SMap (F36 × Nat))
  | groups (g : SMap (BitVec 512))
  /-- The parameter block of an output with its biquad banks, and its convolution bank. -/
  | outCfg (n : Nat) (c : OutCfg) (r : RouteCfg)
  | taps (n : Nat) (t : List F36)
  | objParams (o : Nat) (p : ObjParams) (r : RouteCfg)
  | chain (c : Nat) (x : Dec)
  /-- Parameters of the engines, owners, sinks, streams, direct paths, AES3 receivers, SWAP_MAX. -/
  | common (gainSlew : F36) (scarf : Nat) (wfsLo wfsHi : F36) (wfs : WfsCoef) (ownerB : SMap Bool)
      (sinks : List SinkAsg) (rx : SMap RxSlot) (tx : SMap TxSlot) (dp : SMap DpCfg) (ainMode : SMap Bool) (swapMax : Nat)
  /-- The pending command queue: MSEQ (none where the loss of the drawbar kept it from being mirrored), AF,
  RIDX and descriptor of each command. -/
  | pending (cmds : List (Option (BitVec 32) × BitVec 32 × BitVec 32 × List Byte))
  /-- Receive states of the streams and of the host rings, crossfades of the buses, T_CUR and its slew. -/
  | global (t : TempSlew) (chans : SMap RxChan) (rings : SMap (SMap RxChan)) (fades : SMap (Option XFade))
  | obj (o : Nat) (st : ObjState) (xps : SMap XPoint)
  | front (n : Nat) (d : ChainDsp)
  | back (n : Nat) (d : ChainDsp) (clip : Nat) (peak sumSq minGain : F36) (samples : Nat) (line : SMap F36)
deriving DecidableEq, Repr

end Sys2Proof.Machine
end

