-- ==== Sys2Proof/Syntax.lean ====
section
/-! DEFINITION. The commands of the block: one constructor of `Instr` per row of spec/opcode_table.json,
in the table's order, with the row's operands. An event of the table (a completion, a reception, a timer)
is a command of the environment; its operands are what the physical world or the far end supplies. -/
namespace Sys2Proof
open Machine

/-- What the host did to its own memory before a step, and the byte ranges (address, length) whose DMA reads
fail in the step after the retries of R262. (log 10: DESIGN CHOICE, safe.) -/
structure HostView where
  stores : List Host.Cell := []
  fails : List (Nat × Nat) := []
deriving DecidableEq, Repr

/-- A command descriptor (R263) but for its OPCODE, which the constructor of `Instr` names. `args` are the
32 bytes from 0x20 to 0x3F; `rsv0` and `rsv1` the reserved words at 0x0C and 0x1C. -/
structure CmdDesc where
  func : Byte := 0
  cflags : Byte := 0
  af : BitVec 32 := 0
  tag : BitVec 32 := 0
  rsv0 : BitVec 32 := 0
  addr : BitVec 64 := 0
  len : BitVec 32 := 0
  rsv1 : BitVec 32 := 0
  args : List Byte := []
deriving DecidableEq, Repr

/-- The work of an engine on an element (an output, an object) for an input frame (R94, R112, R158). -/
structure FrameWork where
  ix : Nat
  frame : BitVec 32
deriving DecidableEq, Repr

/-- A transaction's end at a target: the target, and the words that met a cluster's write in their cycle (R360). -/
structure Served where
  target : Nat
  collided : List Nat
deriving DecidableEq, Repr

/-- A received RESYNC_REQ (R237): its stage, and in stage CONFIG the items whose digests differ. -/
structure ResyncReq where
  stage : Nat
  items : List Nat
deriving DecidableEq, Repr

/-- Memory of a bit error that struck (R356, R391): a bay sample word, a bay control entry, a scratch word of
a core, a shared-store word, a DRAM word of a channel. -/
inductive UpsetAt where
  | bay (b w : Nat) | entry (b e : Nat) | scratch (core w : Nat) | store (w : Nat) | dram (ch w : Nat)
  | imem (cl a : Nat)
deriving DecidableEq, Repr

/-- A bit error: where, and whether it is uncorrectable. -/
structure Upset where
  place : UpsetAt
  double : Bool
deriving DecidableEq, Repr

/-- What the physical world supplies at a tick: CLK_CORE cycles of the tick just ended (R183), the bits each
bitstream input delivered in it (R205), bit errors that struck, whether the March test of this tick's region
reads wrong (R367), and the junction temperature in 1/16 °C (R475). (log 11: DESIGN CHOICE, safe.) -/
structure TickIn where
  cycles : Nat := 200000
  bits : List (Nat × List Bool) := []
  upsets : List Upset := []
  patrolBad : Bool := false
  temp : Int := 0
  /-- Ranges whose DMA reads fail at the tick (ring-table entries, R257). -/
  fails : List (Nat × Nat) := []
  /-- Function IDs of engines and ports that detected an internal sequencing error in the frame that ends (R378, kind 3). -/
  seqErrs : List Nat := []
deriving DecidableEq, Repr

/-- A move slot of a core instruction (R352): direction, D register, address register, SIZE, MOD. -/
structure Move where
  store : Bool
  dreg : BitVec 5
  preg : BitVec 4
  size : BitVec 3
  mod : BitVec 2
deriving DecidableEq, Repr

/-- LANE of a core instruction (R333). -/
inductive Lane where
  | lo | hi | pair | pairb
deriving DecidableEq, Repr

/-- The fields of format A (R351). -/
structure AFmt where
  dst : BitVec 5 := 0
  srcA : BitVec 5 := 0
  srcB : BitVec 5 := 0
  lane : Lane := .lo
  move1 : Option Move := none
  move0 : Option Move := none
deriving DecidableEq, Repr

/-- A transaction that a crossbar master requests (R373): address (the full host byte address for the PCI
Express outbound path, `host`), a read or a write of `beats` words, write data and byte-lane strobes. -/
structure XReq where
  master : Nat
  host : Bool := false
  addr : Nat
  write : Bool
  words : Nat
  data : List Word72 := []
  strobes : List (BitVec 9) := []
  /-- A cluster request of a BACKGROUND task (R369, R371). -/
  background : Bool := false
deriving DecidableEq, Repr

/-- A STATUS message of the peer (R227). -/
structure StatusMsg where
  from_ : Nat
  fn : BitVec 32
  pstate : Nat
  active : Bool
  fit : Bool
  sync : Bool
  nc : Bool
  epoch : BitVec 32
  mseq : BitVec 32
  dfn : BitVec 32
  dmask : BitVec 17
  img : BitVec 64
  digests : List (BitVec 64)
deriving DecidableEq, Repr

/-- One subframe of a received AES3 frame: sample, validity, user and status bits, parity good (R455, R456). -/
structure SubFrame where
  sample : Int
  v : Bool := false
  u : Bool := false
  c : Bool := false
  parityOk : Bool := true
deriving DecidableEq, Repr

/-- The commands of the block, in the order of the table. -/
inductive Instr where
  -- Host commands, read from the CMD ring (chapter 09)
  | nop (c : CmdDesc) (h : HostView)
  | fence (c : CmdDesc) (h : HostView)
  | renderStart (c : CmdDesc) (h : HostView)
  | renderStop (c : CmdDesc) (h : HostView)
  | funcReset (c : CmdDesc) (h : HostView)
  | coreOffline (c : CmdDesc) (h : HostView)
  | coreOnline (c : CmdDesc) (h : HostView)
  | ringSetup (c : CmdDesc) (h : HostView)
  | traceCtl (c : CmdDesc) (h : HostView)
  | query (c : CmdDesc) (h : HostView)
  | objMotion (c : CmdDesc) (h : HostView)
  | spkCommit (c : CmdDesc) (h : HostView)
  | triCommit (c : CmdDesc) (h : HostView)
  | dirtabLoad (c : CmdDesc) (h : HostView)
  | directLoad (c : CmdDesc) (h : HostView)
  | paramWrite (c : CmdDesc) (h : HostView)
  | groupSet (c : CmdDesc) (h : HostView)
  | coefLoad (c : CmdDesc) (h : HostView)
  | route (c : CmdDesc) (h : HostView)
  | streamRx (c : CmdDesc) (h : HostView)
  | streamTx (c : CmdDesc) (h : HostView)
  | sinkSet (c : CmdDesc) (h : HostView)
  | decRun (c : CmdDesc) (h : HostView)
  | pchStart (c : CmdDesc) (h : HostView)
  | pchStop (c : CmdDesc) (h : HostView)
  | pchDiag (c : CmdDesc) (h : HostView)
  | pchClear (c : CmdDesc) (h : HostView)
  | limitCommit (c : CmdDesc) (h : HostView)
  | servoOffset (c : CmdDesc) (h : HostView)
  | epochSet (c : CmdDesc) (h : HostView)
  | clockRef (c : CmdDesc) (h : HostView)
  | pairJoin (c : CmdDesc) (h : HostView)
  | pairRejoin (c : CmdDesc) (h : HostView)
  | pairWithdraw (c : CmdDesc) (h : HostView)
  | pairHandover (c : CmdDesc) (h : HostView)
  -- Register accesses with a behaviour of their own (chapters 17, 18)
  | imgLoad (h : HostView)
  | imgLoadDone (h : HostView)
  | devReset (v : BitVec 32)
  | quietEnter
  | quietExit
  | pwrCycle (v : BitVec 32)
  | limitUnlock (v : BitVec 32)
  | limitUnlockExpire
  | ringGoSet (h : HostView)
  | ringGoClear
  | srvGo
  | epGo
  | cref (v : BitVec 32)
  | timeNsRead (cyc : Nat)
  | statClr (port : Nat)
  | tsqPop (port : Nat)
  | dbgRead
  | dbgWrite
  | c22Write (phyad regad : BitVec 5) (data : BitVec 16)
  | c22Read (phyad regad : BitVec 5)
  | c45Address (phyad devad : BitVec 5) (addr : BitVec 16)
  | c45Write (phyad devad : BitVec 5) (data : BitVec 16)
  | c45Read (phyad devad : BitVec 5)
  | mdioDone (data : BitVec 16)
  | csCommit (tx sub : Nat)
  | uCommit (tx sub : Nat)
  | registerWrite (offset size : Nat) (value : BitVec 64)
  -- The tick and the ring engine (chapters 01, 08)
  | tick (world : TickIn)
  | fnStep
  | doorbellFetchDone (ok : Bool) (h : HostView)
  | hbStale
  | heartbeatWatchdog
  | pwrCycleReq
  | ringFault (ring : Nat)
  | didxWriteback (ring : Nat)
  | resultWrite
  | eventDescriptorWrite
  | traceDescriptorWrite
  | telemetryRecord
  | mdStale (obj : Nat)
  | overrunRecover (out : Nat)
  | streamRevive (source : Nat)
  | stagingDone (ridx : BitVec 32) (h : HostView)
  | geoEvalDone
  | bayEngineStart (bay : Nat)
  | reductionDone (out : FrameWork)
  | cveDone (out : FrameWork)
  | bulkReadDone (obj : FrameWork)
  | recordArrival (source : MdSrc) (hub : Nat) (record : List Byte)
  | taskDispatch (core : Nat)
  | objectAudioQueue (slot : Nat)
  | copyEnd
  -- Render-core instructions (chapter 11)
  | insnNop (core : Nat) (f : AFmt)
  | fadd (core : Nat) (f : AFmt)
  | fsub (core : Nat) (f : AFmt)
  | fmul (core : Nat) (f : AFmt)
  | fmac (core : Nat) (f : AFmt)
  | fmsc (core : Nat) (f : AFmt)
  | fmin (core : Nat) (f : AFmt)
  | fmax (core : Nat) (f : AFmt)
  | fabs (core : Nat) (f : AFmt)
  | fneg (core : Nat) (f : AFmt)
  | fmov (core : Nat) (f : AFmt)
  | fdiv (core : Nat) (f : AFmt)
  | fsqrt (core : Nat) (f : AFmt)
  | fcmp (core : Nat) (f : AFmt)
  | fexp (core : Nat) (f : AFmt)
  | fscl (core : Nat) (f : AFmt)
  | fmant (core : Nat) (f : AFmt)
  | itof (core : Nat) (f : AFmt)
  | ftoi (core : Nat) (f : AFmt)
  | ptof (core : Nat) (f : AFmt)
  | ftop (core : Nat) (f : AFmt)
  | iadd (core : Nat) (f : AFmt)
  | isub (core : Nat) (f : AFmt)
  | imul (core : Nat) (f : AFmt)
  | iand (core : Nat) (f : AFmt)
  | ior (core : Nat) (f : AFmt)
  | ixor (core : Nat) (f : AFmt)
  | ishl (core : Nat) (f : AFmt)
  | ishr (core : Nat) (f : AFmt)
  | ilsr (core : Nat) (f : AFmt)
  | icmp (core : Nat) (f : AFmt)
  | icls (core : Nat) (f : AFmt)
  | dmov (core : Nat) (f : AFmt)
  | iaddi (core : Nat) (dst src : BitVec 5) (imm : BitVec 32)
  | ldi (core : Nat) (dst : BitVec 5) (imm : BitVec 32)
  | mts (core : Nat) (sreg : BitVec 7) (d : BitVec 5)
  | mfs (core : Nat) (sreg : BitVec 7) (d : BitVec 5)
  | mtsi (core : Nat) (sreg : BitVec 7) (imm : BitVec 32)
  | paddi (core : Nat) (areg : BitVec 4) (imm : BitVec 32)
  | ldf (core : Nat) (dst : BitVec 5) (lane : Lane) (imm : F36)
  | br (core : Nat) (cond : BitVec 3) (target : BitVec 16)
  | call (core : Nat) (cond : BitVec 3) (target : BitVec 16)
  | ret (core : Nat) (cond : BitVec 3)
  | rep (core : Nat) (count end_ : BitVec 16)
  | repd (core : Nat) (cnt : BitVec 5) (end_ : BitVec 16)
  | hold (core : Nat) (n : BitVec 3)
  | waitx (core : Nat) (mask : BitVec 4)
  | done (core : Nat)
  | xfer (core : Nat) (write : Bool) (tag : BitVec 2) (ps : BitVec 4) (da : BitVec 5) (count : BitVec 14)
  | xferComplete (core : Nat) (tag : BitVec 2)
  -- Crossbar, SRAM and DRAM (chapters 12, 13)
  | xbarRequest (r : XReq)
  | xbarGrant (target : Nat)
  | transactionDone (served : Served)
  | masterResetRelease (master : Nat)
  | eccWriteback (place : UpsetAt)
  | dramEccWriteback (ch w : Nat)
  | refreshDue (ch : Nat)
  | dramTempRead (ch : Nat) (hot : Bool)
  | zqShortCal (ch : Nat)
  | bankIdlePrecharge (ch bank : Nat)
  | alertParity (ch : Nat)
  | alertStuck (ch : Nat)
  | selfRefreshRetry (ch : Nat)
  | dramInitDone (ch : Nat) (cfg : Nat) (badLane : Option Nat)
  -- Redundant hubs (chapter 07)
  | statusRx (m : StatusMsg)
  | missedHeartbeat
  | drawbarBack
  | mirrorRx (mseq af ridx : BitVec 32) (marks : Byte) (desc : List Byte) (h : HostView)
  | mirrorDoneRx (mseq : BitVec 32) (status : BitVec 16)
  | mirrorDoneTimeout (mseq : BitVec 32)
  | sourceRx (source : Nat) (frame : BitVec 32) (samples : List F36)
  | ownerFrameMissing (source : Nat)
  | rerunDone
  | rerunDeadline
  | rerunRx (dfn : BitVec 32) (rerun consistent : BitVec 16)
  | rerunVerdict
  | resyncReqRx (req : ResyncReq)
  | resyncDataRx (stage : Nat) (taken : BitVec 32) (item : ResyncItem)
  | resyncStageDone
  | resyncDone
  | withdrawRx (cause : Nat)
  | handoverRx (frame : BitVec 32)
  | withdrawn
  | promoted
  | demoted
  -- Ethernet ports and media streams (chapter 14)
  | rxClassify (port : Nat) (head : List Byte) (cyc : Nat)
  | rxFrameEnd (port : Nat) (frame : List Byte) (fcsOk codeErr : Bool)
  | aafRx (port : Nat) (packet : List Byte)
  | aes67Rx (port : Nat) (packet : List Byte)
  | metadataRx (port : Nat) (packet : List Byte)
  | pauseExpire (port : Nat)
  | txStart (port : Nat) (h : HostView)
  | txDeparture (port : Nat) (cyc : Nat)
  | eeeLpiEnter
  | eeeWake
  | linkDown (port : Nat)
  | linkUp (port : Nat)
  | portResetTimeout (port : Nat)
  -- AES3 receivers, rate bridges and transmitters (chapters 04, 16)
  | aes3FrameRx (rx : Nat) (z : Bool) (s1 s2 : SubFrame)
  | ainLock (rx : Nat) (rate : Nat)
  | ainLost (rx : Nat) (cause : Nat)
  | ratioLock (rx : Nat)
  | aoutBlockStart (tx : Nat)
  -- Decimation chains, power channels, rails and the journal (chapter 06)
  | bsStuck (chain : Nat)
  | tdAssert (chain : Nat) (lo : Bool)
  | tdRelease (chain : Nat) (lo : Bool)
  | decFillDone (chain : Nat)
  | ocComparator (pch : Nat)
  | iSenseTrip (pch : Nat)
  | cmUpDone (pch : Nat)
  | cmDownDone (pch : Nat)
  | ocWaitExpire (pch : Nat)
  | rcClear (pch : Nat)
  | pchResetDone (pch : Nat)
  | diagPhaseEnd
  | railLow (group : Nat)
  | railOver (group : Nat)
  | reWindowEnd (pch : Nat)
  | limitCommitted (readBackOk : Bool)
  -- Temperature, clocks and time (chapters 15, 17)
  | tempWarn (temp : Int)
  | thermalShutdown (temp : Int)
  | thermalRecover (temp : Int)
  | sysPllLoss
  | sysPllLock
  | refLost (cond : Nat)
  | refQualified
  | alignDone
  | bandSearchDone
  | mediaPllLock
  | mediaPllTimeout
  | mediaPllRetry
  | servoTimeout
  | epochWrap
  -- Power, reset and PCI Express (chapters 08, 17)
  | powerUp
  | supplyFault
  | resetNAssert
  | resetNRelease (roleSel : Bool)
  | sramClearDone (badSpares : List (Nat × Nat))
  | flr
  | d3hotEntry
  | warmReset
  | resetDone
  | d3hotExit
  | busMasterEnable (on : Bool)
  | vectorUnmask (vec : Nat)
  | txUnderrun (tx : Nat)
  | alertNHigh (ch : Nat)
deriving DecidableEq, Repr

end Sys2Proof
end

