-- ==== Sys2Proof/WellFormed.lean ====
section
/-! DEFINITION. Well-formed commands: a core instruction that the encodings of R351 to R354 admit, an event that
names an element the device has. A command descriptor is never ill-formed: the device itself refuses a bad one
(R280, R545). -/
namespace Sys2Proof

/-! ## Core instructions (R351 to R354) -/

/-- A used move slot: SIZE 6 and 7 are reserved, and 5 on a store (R352). -/
def Move.wf (m : Move) : Bool := decide (m.size.toNat < 6) && !(m.store && m.size.toNat = 5)

def optMoveWf (m : Option Move) : Bool := match m with | some m => m.wf | none => true

/-- What a format A instruction may hold beside its moves. -/
inductive AShape where
  /-- Moves only: the other fields are zero. -/
  | bare
  /-- One operand: SRCB is zero. -/
  | unary
  | binary
  /-- One operand, LANE LO or HI. -/
  | unaryHalf
  | binaryHalf
  /-- SRCB is a PCM lane, LANE LO or HI. -/
  | pcm
  /-- One operand, LANE zero. -/
  | whole
deriving DecidableEq, Repr

def AFmt.wf (s : AShape) (f : AFmt) : Bool :=
  let half := f.lane = .lo || f.lane = .hi
  optMoveWf f.move0 && optMoveWf f.move1 &&
  match s with
  | .bare => f.dst = 0 && f.srcA = 0 && f.srcB = 0 && f.lane = .lo
  | .unary => f.srcB = 0
  | .binary => true
  | .unaryHalf => f.srcB = 0 && half
  | .binaryHalf => half
  | .pcm => half && decide (f.srcB.toNat < 3)
  | .whole => f.srcB = 0 && f.lane = .lo

/-- FCMP and ICMP write no D register: DST is reserved. -/
def cmpWf (f : AFmt) : Bool := f.wf .binaryHalf && f.dst = 0

/-- A special-register number of R354. -/
def sregWf (s : BitVec 7) : Bool :=
  let n := s.toNat
  decide (n < 0x2C) || (decide (0x40 ≤ n) && decide (n < 0x44)) || (decide (0x46 ≤ n) && decide (n < 0x58))

/-- COUNT of an XFER is 1 to 8,192 (R338). -/
def countWf (c : BitVec 14) : Bool := decide (1 ≤ c.toNat) && decide (c.toNat ≤ 8192)

/-- n of a HOLD is 1 or 2. -/
def holdWf (n : BitVec 3) : Bool := n = 1 || n = 2

/-- A core index (R320). -/
def coreWf (c : Nat) : Bool := decide (c < 64)

/-! ## Commands -/

/-- The command names elements that exist, and a core instruction is one that the encodings admit.
(log 7: DESIGN CHOICE, safe.) -/
def wellFormed : Instr → Bool
  | .insnNop c f => coreWf c && f.wf .bare
  | .fadd c f | .fsub c f | .fmul c f | .fmac c f | .fmsc c f | .fmin c f | .fmax c f | .fscl c f
  | .iadd c f | .isub c f | .imul c f | .iand c f | .ior c f | .ixor c f | .ishl c f | .ishr c f | .ilsr c f =>
    coreWf c && f.wf .binary
  | .fabs c f | .fneg c f | .fmov c f | .fexp c f | .fmant c f | .itof c f | .ftoi c f | .icls c f =>
    coreWf c && f.wf .unary
  | .fdiv c f => coreWf c && f.wf .binaryHalf
  | .fsqrt c f => coreWf c && f.wf .unaryHalf
  | .fcmp c f | .icmp c f => coreWf c && cmpWf f
  | .ptof c f | .ftop c f => coreWf c && f.wf .pcm
  | .dmov c f => coreWf c && f.wf .whole
  | .iaddi c _ _ _ | .ldi c _ _ | .paddi c _ _ | .br c _ _ | .call c _ _ | .ret c _ | .rep c _ _ | .repd c _ _
  | .waitx c _ | .done c | .xferComplete c _ => coreWf c
  | .mts c s _ | .mfs c s _ | .mtsi c s _ => coreWf c && sregWf s
  | .ldf c _ l _ => coreWf c && l ≠ .pairb
  | .hold c n => coreWf c && holdWf n
  | .xfer c _ _ _ _ n => coreWf c && countWf n
  | .taskDispatch c => coreWf c
  | .bayEngineStart b => decide (b < 16)
  | .mdStale o | .bulkReadDone ⟨o, _⟩ => decide (o < 1024)
  | .overrunRecover n | .reductionDone ⟨n, _⟩ | .cveDone ⟨n, _⟩ => decide (n < 512)
  | .objectAudioQueue s => decide (s < 128)
  | .ringFault r | .didxWriteback r => decide (r < 128)
  | .vectorUnmask v => decide (v < 32)
  | .aes3FrameRx r _ _ _ | .ainLock r _ | .ainLost r _ | .ratioLock r => decide (r < 8)
  | .aoutBlockStart t | .txUnderrun t => decide (t < 8)
  | .csCommit t s | .uCommit t s => decide (t < 8) && decide (s < 2)
  | .bsStuck c | .tdAssert c _ | .tdRelease c _ | .decFillDone c => decide (c < 40)
  | .ocComparator n | .iSenseTrip n | .cmUpDone n | .cmDownDone n | .ocWaitExpire n | .rcClear n | .pchResetDone n
  | .reWindowEnd n => decide (n < 16)
  | .railLow g | .railOver g => decide (g < 4)
  | .refreshDue c | .dramTempRead c _ | .zqShortCal c | .alertParity c | .alertStuck c | .selfRefreshRetry c
  | .dramInitDone c _ _ | .dramEccWriteback c _ | .alertNHigh c => decide (c < 2)
  | .bankIdlePrecharge c b => decide (c < 2) && decide (b < 32)
  | .xbarRequest r => decide (r.master < 18) && decide (1 ≤ r.words) && decide (r.words ≤ 512)
  | .xbarGrant t | .transactionDone ⟨t, _⟩ => decide (t < 25)
  | .masterResetRelease m => decide (m < 18)
  | .rxClassify p _ _ | .rxFrameEnd p _ _ _ | .aafRx p _ | .aes67Rx p _ | .metadataRx p _ | .pauseExpire p
  | .txStart p _ | .txDeparture p _ | .linkDown p | .linkUp p | .portResetTimeout p | .statClr p | .tsqPop p =>
    decide (p < 4)
  | .registerWrite o z _ => decide (o + z ≤ 0x100000)
  | .nop _ _ | .fence _ _ | .renderStart _ _ | .renderStop _ _ | .funcReset _ _ | .coreOffline _ _ | .coreOnline _ _
  | .ringSetup _ _ | .traceCtl _ _ | .query _ _ | .objMotion _ _ | .spkCommit _ _ | .triCommit _ _ | .dirtabLoad _ _
  | .directLoad _ _ | .paramWrite _ _ | .groupSet _ _ | .coefLoad _ _ | .route _ _ | .streamRx _ _ | .streamTx _ _
  | .sinkSet _ _ | .decRun _ _ | .pchStart _ _ | .pchStop _ _ | .pchDiag _ _ | .pchClear _ _ | .limitCommit _ _
  | .servoOffset _ _ | .epochSet _ _ | .clockRef _ _ | .pairJoin _ _ | .pairRejoin _ _ | .pairWithdraw _ _
  | .pairHandover _ _ | .imgLoad _ | .imgLoadDone _ | .devReset _ | .quietEnter | .quietExit | .pwrCycle _
  | .limitUnlock _ | .limitUnlockExpire | .ringGoSet _ | .ringGoClear | .srvGo | .epGo | .cref _ | .timeNsRead _
  | .dbgRead | .dbgWrite | .c22Write _ _ _ | .c22Read _ _ | .c45Address _ _ _ | .c45Write _ _ _ | .c45Read _ _
  | .mdioDone _ | .tick _ | .fnStep | .doorbellFetchDone _ _ | .hbStale | .heartbeatWatchdog | .pwrCycleReq
  | .resultWrite | .eventDescriptorWrite | .traceDescriptorWrite | .telemetryRecord | .streamRevive _
  | .stagingDone _ _ | .geoEvalDone | .recordArrival _ _ _ | .copyEnd | .eccWriteback _
  | .statusRx _ | .missedHeartbeat | .drawbarBack | .mirrorRx _ _ _ _ _ _ | .mirrorDoneRx _ _ | .mirrorDoneTimeout _
  | .sourceRx _ _ _ | .ownerFrameMissing _ | .rerunDone | .rerunDeadline | .rerunRx _ _ _ | .rerunVerdict
  | .resyncReqRx _ | .resyncDataRx _ _ _ | .resyncStageDone | .resyncDone | .withdrawRx _ | .handoverRx _ | .withdrawn
  | .promoted | .demoted | .eeeLpiEnter | .eeeWake | .diagPhaseEnd | .limitCommitted _ | .tempWarn _
  | .thermalShutdown _ | .thermalRecover _ | .sysPllLoss | .sysPllLock | .refLost _ | .refQualified | .alignDone
  | .bandSearchDone | .mediaPllLock | .mediaPllTimeout | .mediaPllRetry | .servoTimeout | .epochWrap | .powerUp
  | .supplyFault | .resetNAssert | .resetNRelease _ | .sramClearDone _ | .flr | .d3hotEntry | .warmReset | .resetDone
  | .d3hotExit | .busMasterEnable _ => true

end Sys2Proof
end

