-- ==== Sys2Proof/Decode.lean ====
section
/-! DEFINITION. Words that spell commands. The table gives no row bits, so no word spells a row by the table's bits
(`decodeTableWord`). The instruction words of the render cores have the encoding of R351 to R354: `decodeCoreWord`
reads one, rejecting what is reserved, and `encodeCoreWord` writes one. -/
namespace Sys2Proof

/-- The command that a word spells by the table's bits. No row of spec/opcode_table.json gives bits.
(log 4: DESIGN CHOICE, safe.) -/
def decodeTableWord (_nbits _w : Nat) : Option Instr := none

/-! ## Fields (R351, R352) -/

/-- LANE (R333). -/
def laneBits : Lane → BitVec 2
  | .lo => 0 | .hi => 1 | .pair => 2 | .pairb => 3

def laneOfBits (b : BitVec 2) : Lane :=
  match b.toNat with
  | 0 => .lo | 1 => .hi | 2 => .pair | _ => .pairb

def boolBit (b : Bool) : BitVec 1 := if b then 1 else 0

/-- A move slot (R352). -/
def encodeMove : Option Move → BitVec 16
  | none => 0
  | some m => 1#1 ++ boolBit m.store ++ m.dreg ++ m.preg ++ m.size ++ m.mod

/-- A move slot read: `none` where it is reserved. -/
def decodeMove (b : BitVec 16) : Option (Option Move) :=
  if b.extractLsb' 15 1 = 1#1 then
    let m : Move := { store := b.extractLsb' 14 1 = 1#1, dreg := b.extractLsb' 9 5, preg := b.extractLsb' 5 4,
                      size := b.extractLsb' 2 3, mod := b.extractLsb' 0 2 }
    if m.wf then some (some m) else none
  else if b = 0 then some none else none

/-- Format A under an opcode. -/
def encodeA (op : BitVec 6) (f : AFmt) : BitVec 64 :=
  op ++ f.dst ++ f.srcA ++ f.srcB ++ laneBits f.lane ++ (0#9) ++ encodeMove f.move1 ++ encodeMove f.move0

def decodeA (w : BitVec 64) : Option AFmt :=
  if w.extractLsb' 32 9 = 0 then
    match decodeMove (w.extractLsb' 16 16), decodeMove (w.extractLsb' 0 16) with
    | some m1, some m0 => some { dst := w.extractLsb' 53 5, srcA := w.extractLsb' 48 5, srcB := w.extractLsb' 43 5,
                                 lane := laneOfBits (w.extractLsb' 41 2), move1 := m1, move0 := m0 }
    | _, _ => none
  else none

/-- Format I. -/
def encodeI (op : BitVec 6) (dst src : BitVec 5) (imm : BitVec 32) : BitVec 64 := op ++ dst ++ src ++ (0#16) ++ imm

/-- Format S. -/
def encodeS (op : BitVec 6) (sreg : BitVec 7) (d : BitVec 5) (imm : BitVec 32) : BitVec 64 :=
  op ++ sreg ++ d ++ (0#14) ++ imm

/-- Format L. -/
def encodeL (op : BitVec 6) (dst : BitVec 5) (lane : Lane) (imm : F36) : BitVec 64 :=
  op ++ dst ++ laneBits lane ++ (0#15) ++ imm

/-- Format B: COND, the 16 bits of COUNT, CNT, n or the mask, END, TARGET. -/
def encodeB (op : BitVec 6) (cond : BitVec 4) (x end_ target : BitVec 16) : BitVec 64 :=
  op ++ cond ++ (0#6) ++ x ++ end_ ++ target

/-- Format X. -/
def encodeX (op : BitVec 6) (write : Bool) (tag : BitVec 2) (ps : BitVec 4) (da : BitVec 5) (count : BitVec 14) :
    BitVec 64 := op ++ boolBit write ++ tag ++ ps ++ da ++ count ++ (0#32)

/-! ## Decoding (R353) -/

/-- Shape and constructor of a format A opcode. -/
def formatA (op core : Nat) : Option ((AFmt → Bool) × (AFmt → Instr)) :=
  match op with
  | 0x00 => some (AFmt.wf .bare, .insnNop core)
  | 0x01 => some (AFmt.wf .binary, .fadd core)
  | 0x02 => some (AFmt.wf .binary, .fsub core)
  | 0x03 => some (AFmt.wf .binary, .fmul core)
  | 0x04 => some (AFmt.wf .binary, .fmac core)
  | 0x05 => some (AFmt.wf .binary, .fmsc core)
  | 0x06 => some (AFmt.wf .binary, .fmin core)
  | 0x07 => some (AFmt.wf .binary, .fmax core)
  | 0x08 => some (AFmt.wf .unary, .fabs core)
  | 0x09 => some (AFmt.wf .unary, .fneg core)
  | 0x0A => some (AFmt.wf .unary, .fmov core)
  | 0x0B => some (AFmt.wf .binaryHalf, .fdiv core)
  | 0x0C => some (AFmt.wf .unaryHalf, .fsqrt core)
  | 0x0D => some (cmpWf, .fcmp core)
  | 0x0E => some (AFmt.wf .unary, .fexp core)
  | 0x0F => some (AFmt.wf .binary, .fscl core)
  | 0x10 => some (AFmt.wf .unary, .fmant core)
  | 0x11 => some (AFmt.wf .unary, .itof core)
  | 0x12 => some (AFmt.wf .unary, .ftoi core)
  | 0x13 => some (AFmt.wf .pcm, .ptof core)
  | 0x14 => some (AFmt.wf .pcm, .ftop core)
  | 0x18 => some (AFmt.wf .binary, .iadd core)
  | 0x19 => some (AFmt.wf .binary, .isub core)
  | 0x1A => some (AFmt.wf .binary, .imul core)
  | 0x1B => some (AFmt.wf .binary, .iand core)
  | 0x1C => some (AFmt.wf .binary, .ior core)
  | 0x1D => some (AFmt.wf .binary, .ixor core)
  | 0x1E => some (AFmt.wf .binary, .ishl core)
  | 0x1F => some (AFmt.wf .binary, .ishr core)
  | 0x20 => some (AFmt.wf .binary, .ilsr core)
  | 0x21 => some (cmpWf, .icmp core)
  | 0x22 => some (AFmt.wf .unary, .icls core)
  | 0x23 => some (AFmt.wf .whole, .dmov core)
  | _ => none

/-- The instruction of formats I to X that a word spells. -/
def decodeRest (core : Nat) (w : BitVec 64) : Option Instr :=
  let z := fun (lo len : Nat) => w.extractLsb' lo len = 0
  match (w.extractLsb' 58 6).toNat with
  | 0x28 => if z 32 16 then some (.iaddi core (w.extractLsb' 53 5) (w.extractLsb' 48 5) (w.extractLsb' 0 32)) else none
  | 0x29 => if z 32 21 then some (.ldi core (w.extractLsb' 53 5) (w.extractLsb' 0 32)) else none
  | 0x2A => if z 0 46 && sregWf (w.extractLsb' 51 7) then some (.mts core (w.extractLsb' 51 7) (w.extractLsb' 46 5)) else none
  | 0x2B => if z 0 46 && sregWf (w.extractLsb' 51 7) then some (.mfs core (w.extractLsb' 51 7) (w.extractLsb' 46 5)) else none
  | 0x2C => if z 32 19 && sregWf (w.extractLsb' 51 7) then some (.mtsi core (w.extractLsb' 51 7) (w.extractLsb' 0 32)) else none
  | 0x2D => if z 32 19 && z 55 3 then some (.paddi core (w.extractLsb' 51 4) (w.extractLsb' 0 32)) else none
  | 0x2E => if z 36 15 && w.extractLsb' 51 2 ≠ 3#2
      then some (.ldf core (w.extractLsb' 53 5) (laneOfBits (w.extractLsb' 51 2)) (w.extractLsb' 0 36)) else none
  | 0x30 => if z 57 1 && z 16 38 then some (.br core (w.extractLsb' 54 3) (w.extractLsb' 0 16)) else none
  | 0x31 => if z 57 1 && z 16 38 then some (.call core (w.extractLsb' 54 3) (w.extractLsb' 0 16)) else none
  | 0x32 => if z 57 1 && z 0 54 then some (.ret core (w.extractLsb' 54 3)) else none
  | 0x33 => if z 48 10 && z 0 16 then some (.rep core (w.extractLsb' 32 16) (w.extractLsb' 16 16)) else none
  | 0x34 => if z 37 21 && z 0 16 then some (.repd core (w.extractLsb' 32 5) (w.extractLsb' 16 16)) else none
  | 0x35 => if z 35 23 && z 0 32 && holdWf (w.extractLsb' 32 3) then some (.hold core (w.extractLsb' 32 3)) else none
  | 0x36 => if z 36 22 && z 0 32 then some (.waitx core (w.extractLsb' 32 4)) else none
  | 0x37 => if z 0 58 then some (.done core) else none
  | 0x38 => if z 0 32 && countWf (w.extractLsb' 32 14)
      then some (.xfer core (w.extractLsb' 57 1 = 1#1) (w.extractLsb' 55 2) (w.extractLsb' 51 4) (w.extractLsb' 46 5)
        (w.extractLsb' 32 14)) else none
  | _ => none

/-- The instruction that a word spells on core `core`: `none` for a reserved opcode, a reserved field value or a
reserved bit that is not zero (R322). -/
def decodeCoreWord (core : Nat) (w : BitVec 64) : Option Instr :=
  match formatA (w.extractLsb' 58 6).toNat core with
  | some a =>
    match decodeA w with
    | some f => if a.1 f then some (a.2 f) else none
    | none => none
  | none => decodeRest core w

/-! ## Encoding (R353) -/

/-- The word of a core instruction; `none` for a command that is none. -/
def encodeCoreWord : Instr → Option (BitVec 64)
  | .insnNop _ f => some (encodeA 0x00 f)
  | .fadd _ f => some (encodeA 0x01 f)
  | .fsub _ f => some (encodeA 0x02 f)
  | .fmul _ f => some (encodeA 0x03 f)
  | .fmac _ f => some (encodeA 0x04 f)
  | .fmsc _ f => some (encodeA 0x05 f)
  | .fmin _ f => some (encodeA 0x06 f)
  | .fmax _ f => some (encodeA 0x07 f)
  | .fabs _ f => some (encodeA 0x08 f)
  | .fneg _ f => some (encodeA 0x09 f)
  | .fmov _ f => some (encodeA 0x0A f)
  | .fdiv _ f => some (encodeA 0x0B f)
  | .fsqrt _ f => some (encodeA 0x0C f)
  | .fcmp _ f => some (encodeA 0x0D f)
  | .fexp _ f => some (encodeA 0x0E f)
  | .fscl _ f => some (encodeA 0x0F f)
  | .fmant _ f => some (encodeA 0x10 f)
  | .itof _ f => some (encodeA 0x11 f)
  | .ftoi _ f => some (encodeA 0x12 f)
  | .ptof _ f => some (encodeA 0x13 f)
  | .ftop _ f => some (encodeA 0x14 f)
  | .iadd _ f => some (encodeA 0x18 f)
  | .isub _ f => some (encodeA 0x19 f)
  | .imul _ f => some (encodeA 0x1A f)
  | .iand _ f => some (encodeA 0x1B f)
  | .ior _ f => some (encodeA 0x1C f)
  | .ixor _ f => some (encodeA 0x1D f)
  | .ishl _ f => some (encodeA 0x1E f)
  | .ishr _ f => some (encodeA 0x1F f)
  | .ilsr _ f => some (encodeA 0x20 f)
  | .icmp _ f => some (encodeA 0x21 f)
  | .icls _ f => some (encodeA 0x22 f)
  | .dmov _ f => some (encodeA 0x23 f)
  | .iaddi _ dst src imm => some (encodeI 0x28 dst src imm)
  | .ldi _ dst imm => some (encodeI 0x29 dst 0 imm)
  | .mts _ r d => some (encodeS 0x2A r d 0)
  | .mfs _ r d => some (encodeS 0x2B r d 0)
  | .mtsi _ r imm => some (encodeS 0x2C r 0 imm)
  | .paddi _ a imm => some (encodeS 0x2D (0#3 ++ a) 0 imm)
  | .ldf _ dst l imm => some (encodeL 0x2E dst l imm)
  | .br _ c t => some (encodeB 0x30 (0#1 ++ c) 0 0 t)
  | .call _ c t => some (encodeB 0x31 (0#1 ++ c) 0 0 t)
  | .ret _ c => some (encodeB 0x32 (0#1 ++ c) 0 0 0)
  | .rep _ n e => some (encodeB 0x33 0 n e 0)
  | .repd _ c e => some (encodeB 0x34 0 (0#11 ++ c) e 0)
  | .hold _ n => some (encodeB 0x35 0 (0#13 ++ n) 0 0)
  | .waitx _ m => some (encodeB 0x36 0 (0#12 ++ m) 0 0)
  | .done _ => some (encodeB 0x37 0 0 0 0)
  | .xfer _ wr t ps da n => some (encodeX 0x38 wr t ps da n)
  | _ => none

end Sys2Proof
end

