-- ==== Sys2Proof/Machine/F36.lean ====
section
/-! DEFINITION. F36 arithmetic (R5, R6, R7, R544): every value is read as an exact dyadic number, every
operation is exact, and one function rounds. -/
namespace Sys2Proof.Machine

/-- An exact dyadic number `m * 2^e`. -/
structure Dy where
  m : Int
  e : Int
deriving DecidableEq, Repr

/-- 2^n for an integer that is not negative. -/
def pow2 (n : Nat) : Nat := 1 <<< n

/-- `x` with exponent lowered to `e` (no change where `e` is above it). -/
def dyAt (x : Dy) (e : Int) : Int := x.m * (pow2 (x.e - e).toNat : Nat)

def dyAdd (x y : Dy) : Dy :=
  let e := min x.e y.e
  ⟨dyAt x e + dyAt y e, e⟩

def dyNeg (x : Dy) : Dy := ⟨-x.m, x.e⟩

def dySub (x y : Dy) : Dy := dyAdd x (dyNeg y)

def dyMul (x y : Dy) : Dy := ⟨x.m * y.m, x.e + y.e⟩

/-- Exact comparison: `x ≤ y`. -/
def dyLe (x y : Dy) : Bool :=
  let e := min x.e y.e
  decide (dyAt x e ≤ dyAt y e)

def dyLt (x y : Dy) : Bool :=
  let e := min x.e y.e
  decide (dyAt x e < dyAt y e)

def dyInt (n : Int) : Dy := ⟨n, 0⟩

/-- `n / 2^s` rounded to nearest, ties to even; `sticky` says that the true value lies strictly above `n`
(and below `n + 1`). -/
def roundShift (n s : Nat) (sticky : Bool) : Nat :=
  if s = 0 then n else
  let q := n >>> s
  let r := n - (q <<< s)
  let half := pow2 (s - 1)
  if r > half || (r == half && (sticky || q % 2 == 1)) then q + 1 else q

/-- Bits of a natural number (0 for 0). -/
def bitLen (n : Nat) : Nat := if n = 0 then 0 else Nat.log2 n + 1

/-- The largest finite value with sign `neg` (R5). -/
def f36Max (neg : Bool) : F36 := if neg then 0xFF7FFFFFF#36 else 0x7F7FFFFFF#36

/-- The F36 value of `± n * 2^e`, rounded as R5 says; `sticky` as in `roundShift`. -/
def f36Round (neg : Bool) (n : Nat) (e : Int) (sticky : Bool) : F36 :=
  if n = 0 then 0 else
  -- at least 30 bits, so that the sticky bit lies below the rounding place
  let k := 30 - bitLen n
  let n := n <<< k
  let e := e - k
  let s := bitLen n - 28
  let q := roundShift n s sticky
  let q2 := if q = pow2 28 then pow2 27 else q
  let e2 : Int := e + s + (if q = pow2 28 then 1 else 0) + 27
  -- value q2 * 2^(e2 - 27), 2^27 ≤ q2 < 2^28
  if e2 < -126 then 0
  else if e2 > 127 then f36Max neg
  else BitVec.ofNat 36 ((if neg then pow2 35 else 0) + (e2 + 127).toNat * pow2 27 + (q2 - pow2 27))

/-- The F36 value nearest to an exact dyadic number (R5). -/
def ofDy (x : Dy) : F36 := f36Round (decide (x.m < 0)) x.m.natAbs x.e false

/-- The exact value of an encoding (R5, R6: e = 0 reads as zero, e = 255 as the largest finite value). -/
def toDy (x : F36) : Dy :=
  let neg := x.getLsbD 35
  let e := (x.toNat / pow2 27) % 256
  let f := x.toNat % pow2 27
  if e = 0 then ⟨0, 0⟩
  else
    let m : Nat := if e = 255 then pow2 28 - 1 else pow2 27 + f
    let e' : Int := (if e = 255 then 254 else (e : Int)) - 127 - 27
    ⟨if neg then -(m : Int) else m, e'⟩

/-- The F36 value nearest to the rational `n / d`, `d > 0` (R543). -/
def f36Rat (n : Int) (d : Nat) : F36 :=
  if n = 0 then 0 else
  let a := n.natAbs
  -- scaled so that the quotient has at least 30 bits
  let k := (34 + bitLen d) - bitLen a
  let q := (a <<< k) / d
  f36Round (decide (n < 0)) q (-(k : Int)) (decide ((a <<< k) % d ≠ 0))

def fadd (x y : F36) : F36 := ofDy (dyAdd (toDy x) (toDy y))
def fsub (x y : F36) : F36 := ofDy (dySub (toDy x) (toDy y))
def fmul (x y : F36) : F36 := ofDy (dyMul (toDy x) (toDy y))
/-- `c + a*b` with one rounding. -/
def ffma (c a b : F36) : F36 := ofDy (dyAdd (toDy c) (dyMul (toDy a) (toDy b)))
/-- `c − a*b` with one rounding. -/
def ffms (c a b : F36) : F36 := ofDy (dySub (toDy c) (dyMul (toDy a) (toDy b)))

def fneg (x : F36) : F36 := ofDy (dyNeg (toDy x))
def fabs (x : F36) : F36 := ofDy ⟨(toDy x).m.natAbs, (toDy x).e⟩
/-- The value re-encoded as the device writes it (R6). -/
def fcanon (x : F36) : F36 := ofDy (toDy x)

def fle (x y : F36) : Bool := dyLe (toDy x) (toDy y)
def flt (x y : F36) : Bool := dyLt (toDy x) (toDy y)
def feq (x y : F36) : Bool := fle x y && fle y x
def fzero (x : F36) : Bool := (toDy x).m == 0
def fmin (x y : F36) : F36 := if fle x y then fcanon x else fcanon y
def fmax (x y : F36) : F36 := if fle y x then fcanon x else fcanon y
/-- `x` limited to [lo, hi]. -/
def fclamp (lo hi x : F36) : F36 := if flt x lo then lo else if flt hi x then hi else fcanon x

/-- Quotient of exact dyadic numbers `x / y`, `y ≠ 0`, rounded once. -/
def dyDiv (x y : Dy) : F36 :=
  let neg := decide (x.m < 0) != decide (y.m < 0)
  let a := x.m.natAbs
  let b := y.m.natAbs
  if a = 0 then 0 else
  let k := (34 + bitLen b) - bitLen a
  f36Round neg ((a <<< k) / b) (x.e - y.e - k) (decide ((a <<< k) % b ≠ 0))

/-- `x / y`; a zero divisor gives the largest finite value with the sign of the dividend's encoding (0 for 0/0):
callers that the spec gives another rule for a zero divisor test it first. -/
def fdiv (x y : F36) : F36 :=
  if fzero y then (if fzero x then 0 else f36Max (x.getLsbD 35)) else dyDiv (toDy x) (toDy y)

/-- Integer square root (largest r with r² ≤ n) by Newton's step, `fuel` rounds from above. -/
def isqrtGo (n : Nat) : Nat → Nat → Nat
  | 0, r => r
  | fuel + 1, r =>
    let r2 := (r + n / r) / 2
    if r2 ≥ r then r else isqrtGo n fuel r2

/-- Integer square root of `n`. -/
def isqrt (n : Nat) : Nat :=
  if n = 0 then 0 else isqrtGo n (bitLen n + 8) (pow2 ((bitLen n + 1) / 2))

/-- Square root of an exact dyadic number (0 for a negative one), rounded once. -/
def dySqrt (x : Dy) : F36 :=
  if x.m ≤ 0 then 0 else
  let a := x.m.natAbs
  let k := 70 - bitLen a
  -- an even exponent after scaling
  let k := if (x.e - k) % 2 = 0 then k else k + 1
  let n := a <<< k
  let r := isqrt n
  f36Round false r ((x.e - k) / 2) (decide (r * r ≠ n))

def fsqrt (x : F36) : F36 := dySqrt (toDy x)

/-- The F36 value of an integer (R5). -/
def fint (n : Int) : F36 := ofDy ⟨n, 0⟩

/-- The value of a PCM code, exactly (R7). -/
def ofPcm (n : Int) : F36 := ofDy ⟨n, -23⟩

def fOne : F36 := 0x3F8000000#36
def fHalf : F36 := 0x3F0000000#36

/-- `x * 2^k` exactly. -/
def fscale (x : F36) (k : Int) : F36 := ofDy ⟨(toDy x).m, (toDy x).e + k⟩

/-- Largest integer not above an exact dyadic number. -/
def dyFloor (x : Dy) : Int :=
  if x.e ≥ 0 then x.m * (pow2 x.e.toNat : Nat) else Int.fdiv x.m (pow2 (-x.e).toNat : Nat)

/-- Nearest integer, ties to even (R543: round_half_even). -/
def dyRound (x : Dy) : Int :=
  if x.e ≥ 0 then x.m * (pow2 x.e.toNat : Nat) else
  let n := roundShift x.m.natAbs (-x.e).toNat false
  if x.m < 0 then -(n : Int) else n

/-- Nearest integer to a rational, ties to even. -/
def ratRound (n : Int) (d : Nat) : Int :=
  let q := Int.fdiv n d
  let r := n - q * d
  if 2 * r > d || (2 * r == d && q % 2 != 0) then q + 1 else q

/-- The saturated PCM code of an integer (R7). -/
def pcmSat (n : Int) : Int := if n > 0x7FFFFF then 0x7FFFFF else if n < -0x800000 then -0x800000 else n

/-- An integer read from the low `w` bits of `n` as two's complement. -/
def sext (w n : Nat) : Int :=
  let n := n % pow2 w
  if n < pow2 (w - 1) then n else (n : Int) - pow2 w

/-- Low `w` bits of an integer. -/
def uext (w : Nat) (n : Int) : Nat := (n % (pow2 w : Nat)).toNat

end Sys2Proof.Machine
end

