-- ==== Sys2Proof/Machine/Maps.lean ====
section
/-! DEFINITION. Operations on sparse maps by number (`SMap`), kept in ONE canonical form: keys strictly
rising, no entry equal to the value `v0` that an unlisted key reads as. -/
namespace Sys2Proof.Machine

variable {α β : Type}

/-- The value of key `k`; `v0` where the map lists none. -/
def mget (v0 : α) : SMap α → Nat → α
  | [], _ => v0
  | (j, v) :: m, k => if j = k then v else mget v0 m k

/-- The map without key `k`. -/
def mdel (m : SMap α) (k : Nat) : SMap α := m.filter (fun p => p.1 ≠ k)

/-- Insertion in key order. -/
def minsert (k : Nat) (v : α) : SMap α → SMap α
  | [] => [(k, v)]
  | (j, w) :: m => if k < j then (k, v) :: (j, w) :: m else (j, w) :: minsert k v m

/-- The map with key `k` at value `v`; storing `v0` removes the entry. -/
def mset [DecidableEq α] (v0 : α) (m : SMap α) (k : Nat) (v : α) : SMap α :=
  if v = v0 then mdel m k else minsert k v (mdel m k)

/-- The map with `f` applied to the value of key `k`. -/
def mmod [DecidableEq α] (v0 : α) (m : SMap α) (k : Nat) (f : α → α) : SMap α :=
  mset v0 m k (f (mget v0 m k))

/-- Several settings, in order. -/
def msets [DecidableEq α] (v0 : α) (m : SMap α) (l : List (Nat × α)) : SMap α :=
  l.foldl (fun a p => mset v0 a p.1 p.2) m

/-- The map with the keys that satisfy `p` removed. -/
def mdrop (m : SMap α) (p : Nat → Bool) : SMap α := m.filter (fun q => !p q.1)

/-- `f` over every listed value, with the canonical form kept. -/
def mmap [DecidableEq β] (v0 : β) (f : Nat → α → β) (m : SMap α) : SMap β :=
  (m.map (fun p => (p.1, f p.1 p.2))).filter (fun q => q.2 ≠ v0)

/-- A map from a list of values of keys 0, 1, 2, … -/
def mofList [DecidableEq α] (v0 : α) (l : List α) : SMap α :=
  (l.zipIdx.map (fun p => (p.2, p.1))).filter (fun q => q.2 ≠ v0)

/-- The canonical form of a map with default `v0`. -/
def mwf [DecidableEq α] (v0 : α) (m : SMap α) : Bool :=
  (m.zip m.tail).all (fun p => p.1.1 < p.2.1) && m.all (fun p => decide (p.2 ≠ v0))

/-- The element at place `i` of a list, `v0` past its end. -/
def nth (v0 : α) (l : List α) (i : Nat) : α := l.getD i v0

/-- Counter with saturation at 2^32 − 1 (R294). -/
def inc32 (n : Nat) : Nat := if n < 0xFFFFFFFF then n + 1 else n

/-- Addition with saturation at 2^32 − 1 (R294). -/
def add32 (n k : Nat) : Nat := min 0xFFFFFFFF (n + k)

/-- Counter with saturation at 2^16 − 1. -/
def inc16 (n : Nat) : Nat := if n < 0xFFFF then n + 1 else n

/-- `f` iterated `n` times. -/
def iter (f : α → α) : Nat → α → α
  | 0, a => a
  | n + 1, a => iter f n (f a)

/-- Fold over 0, 1, …, n − 1. -/
def foldN (n : Nat) (f : α → Nat → α) (a : α) : α := (List.range n).foldl f a

end Sys2Proof.Machine
end

