-- ==== Sys2Proof/Machine/State.lean ====
section
/-! DEFINITION. The state of the block as plain data: one structure per chapter of the spec, gathered in
`Device`; the frame numbers in `FrameClock`; the host memory the device reads and writes; the queue of
waiting commands. Every field's docstring names its rule. -/
namespace Sys2Proof.Machine

/-- Why a command stops the machine. The spec gives every row of the table an effect, so no meaning of this
model raises it; it is the type the interface asks for. Safe: a run never ends in it. -/
inductive Fault where
  /-- Raised by no command. Safe. -/
  | none
deriving DecidableEq, Repr

/-- Why a command has no meaning in the model. -/
inductive Refusal where
  /-- The row has no meaning yet; raised by an arm of `exec` alone. Safe: the run stops. -/
  | notModelled (mnemonic : String)
deriving DecidableEq, Repr

/-! ## Frames (chapter 01) -/

/-- The frame numbers (R16, R17, R19). -/
structure FrameClock where
  /-- FN, 32 bits (R16, R19). Reset 0 (R19). -/
  fn : BitVec 32 := 0
  /-- FNX, 64 bits (R17). Reset 0. -/
  fnx : BitVec 64 := 0
  /-- FN_SYNC, 1 bit (R19, R503). Reset 0. -/
  fnSync : Bool := false
deriving DecidableEq, Repr

/-! ## Configuration image (chapter 17) -/

/-- One custom-task record (R300). -/
structure CustomTask where
  flow : Nat := 0
  seq : Nat := 0
  background : Bool := false
  entry : Nat := 0
  cost : Nat := 0
  stateLen : Nat := 0
  ops : List Nat := []
deriving DecidableEq, Repr

/-- Static part of an output (R150). -/
structure OutStatic where
  biqMax : Nat := 16
  xoMax : Nat := 0
  convMax : Nat := 0
deriving DecidableEq, Repr

/-- One port of the NET section (R482). -/
structure NetPort where
  mac : BitVec 48 := 0
  phy : Nat := 0
  fec : Nat := 0
  ipv4 : BitVec 32 := 0
  maxFrame : Nat := 1522
deriving DecidableEq, Repr

/-- The loaded configuration image (R479 to R483). (log 29: DESIGN CHOICE, unsafe.) -/
structure Image where
  imgId : BitVec 64 := 0
  fs96 : Bool := true
  spares : Nat := 4
  nObj : Nat := 64
  nOut : Nat := 16
  swapMax : Nat := 32
  scarfXp : Nat := 0
  cveLong : Bool := false
  objBulkEn : Bool := false
  outBulkEn : Bool := false
  clockRef : Nat := 3
  wclkCfg : Nat := 0
  bridgeMask : BitVec 8 := 0
  objBulkBase : Nat := 0
  outBulkBase : Nat := 0
  cveBase : Nat := 0
  coefBw : Nat := 65536
  pairId : Nat := 0
  pairTag : BitVec 32 := 1
  peerStream : BitVec 64 := 0
  objLaws : List Byte := []
  outs : List OutStatic := []
  dcfg : List Nat := []
  mapConcat : Bool := false
  tempSrc : Nat := 0
  rtQos : Nat := 9
  scrubEn : Bool := true
  /-- DQ_DRV, PHY_ODT, RTT_NOM, RTT_WR, RTT_PARK (R383). -/
  phy : List Nat := []
  idleNs : Nat := 256
  haChMax : Nat := 128
  haBase : Nat := 0
  directBase : Nat := 0
  codeBase : Nat := 0
  qosFrame : Nat := 10
  qosBack : Nat := 2
  qos : List Nat := [12, 11, 9, 13, 8, 13, 14, 15, 10, 1]
  attach : Nat := 0
  net : List NetPort := []
  /-- PCH_OUT, RAIL_GRP per channel; PWM_INTLV; RAIL_VFS, RAIL_SCALE per group (R179). -/
  pchOut : List Nat := []
  railGrp : List Nat := []
  pwmIntlv : Bool := true
  railVfs : List F36 := []
  railScale : List F36 := []
  tasks : List CustomTask := []
  code : List (BitVec 64) := []
  areas : List (Nat × Nat) := []
  /-- CRC-64 of the image with its pair fields zero (R222). -/
  digest : BitVec 64 := 0
deriving DecidableEq, Repr

/-- The loader's registers and the image in force (R484, R504). -/
structure ImgState where
  /-- Image in force (R485), none while unconfigured. Reset none. -/
  img : Option Image := none
  /-- IMG_ADDR 64 bits (R504). Reset 0. -/
  addr : BitVec 64 := 0
  /-- IMG_LEN 32 bits (R504). Reset 0. -/
  len : BitVec 32 := 0
  /-- IMG_STATUS.STATE 2 bits (R484): 0 NONE, 1 BUSY, 2 LOADED, 3 REFUSED. Reset 0. -/
  st : Nat := 0
  /-- IMG_STATUS.CODE 16 bits (R486, R504). Reset 0. -/
  code : Nat := 0
  /-- IMG_DETAIL0 to IMG_DETAIL3, 32 bits each (R504). Reset 0. -/
  detail : List Nat := [0, 0, 0, 0]
  /-- IMG_ID 64 bits (R504). Reset 0. -/
  imgId : BitVec 64 := 0
  /-- Lowest built-in shared-store word (R363, R502 SS_LOW). Reset 0x0010_0000. -/
  ssLow : Nat := 0x100000
  /-- The budget of the last accepted check, word by word as the BUDGET query lists it (R33, R293). Reset empty. -/
  budget : List Nat := []
  /-- Margins of the four conditions of the last accepted check (R33). Reset empty. -/
  margins : List Nat := []
deriving DecidableEq, Repr

/-! ## Commands, results, events (chapters 01, 08, 09) -/

/-- One member of a GROUP or ALL write or load with its own decided AF (R174). -/
structure Member where
  idx : Nat
  af : BitVec 32
  applied : Bool := false
deriving DecidableEq, Repr

/-- An accepted command that waits for its decided AF or its completion (R28, R30). -/
structure Pend where
  opcode : Nat
  d : CmdDesc
  ridx : BitVec 32
  /-- Number of the acceptance on this device, by which other state names the command. -/
  uid : BitVec 32 := 0
  af : BitVec 32
  late : Bool := false
  deferred : Bool := false
  /-- Mirror sequence number (R230) of a mirrored command, and whether this hub took it from a mirror. -/
  mseq : Option (BitVec 32) := none
  fromMirror : Bool := false
  members : List Member := []
  skipped : Nat := 0
  clamped : Nat := 0
  /-- Frame by which staging is guaranteed (R38, R164), whether it is complete, and the operand fetched
  (`none` inside: the read failed, R262). -/
  stageBy : BitVec 32 := 0
  staged : Bool := true
  operand : Option (List Byte) := some []
  /-- The first bad item and its rule that the check of a coefficient set found as it arrived (R154, R164). -/
  bad : Option (Nat × Nat) := none
  /-- Core and CVE staging work while not staged (W_q, V_q of R164). -/
  work : Nat := 0
  cveWork : Nat := 0
  /-- Applied, and waiting for the DONE frame of R280. -/
  applied : Bool := false
  /-- Frame in which the DONE block is posted, once known. -/
  doneAt : Option (BitVec 32) := none
  status : Nat := 0
  detail : List Nat := []
  /-- Submitted by register form (R509): no result is posted. -/
  silent : Bool := false
deriving DecidableEq, Repr

/-- A data area that is written before its DONE block (R267). -/
structure Area where
  addr : Nat
  len : Nat
  fn : BitVec 32
  payload : List Byte
deriving DecidableEq, Repr

/-- A result block held on chip until the RESULT ring has room (R264, R265). -/
structure ResultBlk where
  done : Bool
  marks : Byte
  status : Nat
  opcode : Nat
  func : Byte
  tag : BitVec 32
  ridx : BitVec 32
  af : BitVec 32
  detail : List Nat := []
  notify : Bool := false
  area : Option Area := none
deriving DecidableEq, Repr

/-- Command acceptance and completion. (log 28: DESIGN CHOICE, safe.) -/
structure CmdState where
  /-- Accepted commands in acceptance order (R29, R30), at most 4,096. Reset empty. -/
  queue : List Pend := []
  /-- THE MODEL'S OWN: number of the next acceptance. DESIGN CHOICE: reset 0. -/
  nextUid : BitVec 32 := 0
  /-- Ring engine stopped by the full queue (R30). Reset clear. -/
  held : Bool := false
  /-- Number of the FENCE that holds the ring (R283). Reset none. -/
  fence : Option (BitVec 32) := none
  /-- Commands read in this frame (R264: up to 256). Reset 0. -/
  readNow : Nat := 0
  /-- Result blocks waiting on chip (R264). Reset empty. -/
  results : List ResultBlk := []
  /-- CMD_LATE, CMD_DEFERRED counters, 32 bits saturating (R294). Reset 0. -/
  lateCnt : Nat := 0
  deferCnt : Nat := 0
  /-- Register-form submissions SRV, EP, CREF, at most 8 each (R509): the submitted commands. Reset empty. -/
  srv : List CmdDesc := []
  ep : List CmdDesc := []
  cref : List CmdDesc := []
deriving DecidableEq, Repr

/-- An event (R269). -/
structure Event where
  code : Nat
  func : Byte
  fn : BitVec 32
  timeNs : BitVec 32
  detail : List Byte
deriving DecidableEq, Repr

/-- The event store (R269, R270). -/
structure EvtState where
  /-- Events on chip, oldest first, at most 256 (R270). Reset empty. -/
  store : List Event := []
  /-- EVT_LOST since the last EVENTS_LOST (R270). Reset 0. -/
  lostNow : Nat := 0
  /-- EVT_LOST counter, 32 bits saturating (R294). Reset 0. -/
  lost : Nat := 0
  /-- Frames until an event of the keyed kind may be raised again (the "at most one per 60 frames" rules). Reset empty. -/
  wait : SMap Nat := []
  /-- Events that must precede all others once the ring engine restarts (R443, R491). Reset empty. -/
  first : List Event := []
deriving DecidableEq, Repr

/-! ## Host rings (chapter 08) -/

/-- One ring (R253 to R257, R262, R272). -/
structure Ring where
  run : Bool := false
  base : Nat := 0
  size : Nat := 16
  irq : Bool := false
  vec : Nat := 0
  modCount : Nat := 1
  modFrames : Nat := 0
  arg : List Byte := []
  hidx : BitVec 32 := 0
  didx : BitVec 32 := 0
  fault : Bool := false
  idxBad : Nat := 0
  retries : Nat := 0
  /-- DIDX advanced and not yet written back (R261). -/
  dirty : Bool := false
  /-- Unsignalled entries and frames since the first of them (R272). -/
  unsig : Nat := 0
  unsigAge : Nat := 0
  /-- An entry that interrupts at its write-back whatever the moderation (R272). -/
  urgent : Bool := false
  bufBad : Nat := 0
deriving DecidableEq, Repr

/-- A host-to-device audio ring's buffers and channels (R128, R274). -/
structure AinRing where
  held : List (BitVec 32 × List Int) := []
  expect : Option (BitVec 32) := none
  late : Nat := 0
  early : Nat := 0
  chans : SMap RxChan := []
  muteWait : Nat := 0
deriving DecidableEq, Repr

/-- The ring engine. (log 82: DESIGN CHOICE, safe; log 143: PRESUMED, unsafe.) -/
structure RingEngine where
  /-- RING_CTL.RING_GO, 1 bit (R507). Reset 0. -/
  go : Bool := false
  /-- RING_GO was cleared and the engine stops at the next tick (R507). Reset clear. -/
  stopping : Bool := false
  /-- DB_BASE, RING_TABLE_BASE, DEV_IDX_BASE, 64 bits each (R255, R507). Reset 0. -/
  dbBase : BitVec 64 := 0
  tblBase : BitVec 64 := 0
  devBase : BitVec 64 := 0
  /-- ERR_VEC, 5 bits (R262, R507). Reset 0. -/
  errVec : Nat := 0
  /-- Rings 0 to 127 (R253). Reset stopped. -/
  rings : SMap Ring := []
  /-- HB of the last successful fetch (R260). Reset none. -/
  hb : Option (BitVec 32) := none
  /-- HB_AGE (R260) 32 bits. Reset 0. -/
  hbAge : Nat := 0
  /-- HB_STALE raised and not yet followed by HB_OK (R260). Reset clear. -/
  hbStale : Bool := false
  /-- DB_MISS, 32 bits saturating (R22, R261). Reset 0. -/
  dbMiss : Nat := 0
  /-- Tick of the fetch under way (R21 action 2, R259). Reset clear. -/
  fetching : Bool := false
  /-- Host-to-device audio rings 16 to 31 (R128). Reset empty. -/
  ain : SMap AinRing := []
  /-- Frames dropped since the previous buffer, per AOUT ring (R274), 16 bits saturating. Reset 0. -/
  aoutGap : SMap Nat := []
  /-- TELEM: ticks of the last record and records skipped (R275, R276). Reset none, 0. -/
  telLast : Option (BitVec 32) := none
  telSkipped : Nat := 0
  telDue : Bool := false
  /-- The MSI-X table in BAR2: message address and data of 32 vectors (R251), which no command writes. Reset 0 (PCI family). -/
  msixAddr : SMap (BitVec 64) := []
  msixData : SMap (BitVec 32) := []
  /-- MSI-X: mask bits, pending bits of 32 vectors, messages sent since the latest tick (R251, R272). Reset all masked (PCI
  family), none. -/
  msixMask : BitVec 32 := 0xFFFFFFFF#32
  msixPend : BitVec 32 := 0
  msixSent : List Nat := []
  /-- Bus Master Enable, 1 bit (R252). Reset 0 (PCI family). -/
  busMaster : Bool := false
  /-- The function is in D3hot (R251, R252). Reset clear. -/
  d3hot : Bool := false
  /-- Records of META descriptors read in this frame (R273: up to 2 x N_OBJ). Reset 0. -/
  metaRead : Nat := 0
deriving DecidableEq, Repr

/-! ## Objects, speakers, geometry (chapter 02) -/

/-- Object and geometry state common to all objects. -/
structure GeoState where
  /-- Objects, 1,024 of them (R46): parameters, motion, window and the rest. Reset at the defaults of R47 and R485. -/
  objs : SMap ObjState := []
  /-- Speaker table in use, 512 entries of 64 bytes (R61, R63). Reset every entry zero (R485). -/
  spk : SMap Speaker := []
  /-- Triangle table in use, 2,048 entries (R64). Reset every entry zero. -/
  tri : SMap Triangle := []
  /-- Direction gain table in use, key 64 x direction + column, F36 (R66). Reset zero. -/
  dirtab : SMap F36 := []
  /-- DIRECT gains and delays, key 512 x object + output (R81). Reset zero. -/
  direct : SMap (F36 × Nat) := []
  /-- T_SET, T_CUR and the slew (R67). Reset 20 (range-line default). -/
  temp : TempSlew := {}
  /-- WFS_COS_LO, WFS_COS_HI, F36 (R75). Reset 0.0 and 0.2. -/
  wfsLo : F36 := 0
  wfsHi : F36 := 0x3E4CCCCCD#36
  /-- Counters of the flags of R83, 32 bits saturating (R84). Reset 0. -/
  flagCnt : SMap Nat := []
  /-- GEO_OVERRUN counter (R86, R294). Reset 0. -/
  overruns : Nat := 0
  /-- An evaluation started at the latest tick and not finished (R86). Reset clear. -/
  running : Bool := false
  /-- A hardware fault has ended that evaluation (R378). Reset clear. -/
  failed : Bool := false
deriving DecidableEq, Repr

/-! ## Crosspoints and the delay store (chapter 03) -/

/-- XPE parameters that commands stage for the tasks of the next input frame (R27). -/
structure XpCfg where
  gainSlew : F36 := 0x3E8000000#36
  scarfXp : Nat := 0
deriving DecidableEq, Repr

/-- Crosspoint engine. -/
structure XpState where
  /-- GAIN_SLEW F36, SCARF_XP (R103, R110), applied and in use. Reset 0.25; image value. -/
  app : XpCfg := {}
  live : XpCfg := {}
  /-- Bay sample words, key 524,288 x bay + word, 72 bits (R87). Reset 0 (R357). -/
  words : SMap Word72 := []
  /-- Bay words and control entries whose code is uncorrectable (R113). Reset empty. -/
  badWords : List Nat := []
  badEntries : List Nat := []
  /-- Crosspoint state table, key 512 x object + output (R98). Reset zero. -/
  xps : SMap XPoint := []
  /-- First frame of the ramp-in in force: S of R104, none while no ramp-in frame remains. Reset none. -/
  rampFrom : Option (BitVec 32) := none
  /-- Partial sums of the running frame, key 512 x bay + output (R111). Reset empty. -/
  partials : SMap (List F36) := []
  /-- Bays whose engine has started this frame (R114). Reset empty. -/
  started : List Nat := []
  /-- Uncorrectable words that the engines have read in this frame (R113). Reset empty. -/
  met : List Nat := []
  /-- SCARF and HOLD crosspoints of the last frame per bay (R118, R293). Reset 0. -/
  scarfCnt : SMap Nat := []
  holdCnt : SMap Nat := []
  /-- Counters of the flags of R118, 32 bits saturating. Reset 0. -/
  flagCnt : SMap Nat := []
  /-- AF of a function reset (R496): input frame AF is faded by w_out, frame AF + 1 starts anew. Reset none. -/
  resetAt : Option (BitVec 32) := none
deriving DecidableEq, Repr

/-! ## Inputs and routing (chapter 04) -/

/-- A rate bridge (R129 to R131). `fade`: 0 steady, 1 fade in next frame, 2 fade out next frame. -/
structure Bridge where
  locked : Bool := false
  fade : Nat := 0
  audible : Bool := false
deriving DecidableEq, Repr

/-- A slip buffer (R132): samples per subframe, oldest first. -/
structure Slip where
  s0 : List Int := []
  s1 : List Int := []
  last0 : Int := 0
  last1 : Int := 0
  fade : Nat := 0
  audible : Bool := false
deriving DecidableEq, Repr

/-- Input side of one AES3 receiver in the media domain (R128 to R132). -/
structure AinMedia where
  /-- AIN_MODE: slip (1) or bridge (0), applied, for the frame just sealed (R27), and in use. -/
  slipApp : Bool := false
  slipLive : Bool := false
  slip : Bool := false
  bridge : Bridge := {}
  buf : Slip := {}
  slips : Nat := 0
  bridgeMute : Nat := 0
  bridgeLock : Nat := 0
  rateMismatch : Nat := 0
  slipWait : Nat := 0
deriving DecidableEq, Repr

/-- A direct path: configuration before and after the latest tick, filter and limiter state, last output frame. -/
structure DirectPath where
  app : DpCfg := {}
  live : DpCfg := {}
  prev : DpCfg := {}
  hp : BiqSt := {}
  g : F36 := 0x3F8000000#36
  out : List F36 := []
  prevOut : List F36 := []
deriving DecidableEq, Repr

/-- Inputs: sources sealed at the latest tick, network slots, routing owners, direct paths. -/
structure InState where
  /-- Sealed source frames of input frame FN − 1, by source ID (R23). Reset empty (silence). -/
  sources : SMap (List F36) := []
  /-- Receive slots 0 to 127 (R292): as applied, for the frame just sealed, and for the frame before (R426). Reset off. -/
  rx : SMap RxSlot := []
  rxLive : SMap RxSlot := []
  rxPrev : SMap RxSlot := []
  /-- Receive counters per slot (R294). Reset 0. -/
  rxCnt : SMap RxCounters := []
  /-- Sequence state per slot (R417, R418). Reset none. -/
  rxSeq : SMap RxSeq := []
  /-- Samples held per slot and channel, key 64 x slot + channel (R122 to R124). Reset empty. -/
  bufs : SMap RxBuf := []
  /-- Source channels, key 65,536 x hub + source ID, hub 0 for NET (R125, R126). Reset MUTED. -/
  chans : SMap RxChan := []
  /-- Media side of receivers AIN0 to AIN7 (R128 to R132). Reset muted. -/
  ain : SMap AinMedia := []
  /-- SRC_OWNER per source: true for hub B (R134), as applied and for the frame just sealed (R27). Reset A. -/
  ownerB : SMap Bool := []
  ownerLive : SMap Bool := []
  /-- Owner frames received: source, frame, samples (R134). Reset empty. -/
  ownerFrames : List (Nat × BitVec 32 × List F36) := []
  /-- Own sealed frame of the last tick per local source in a pair (R135). Reset empty. -/
  localPrev : SMap (List F36) := []
  /-- NC marks: frames that are not comparable (R135). Reset empty. -/
  nc : List (BitVec 32) := []
  /-- AF of a function reset of the stream engine (R496): every channel misses frame AF, transmit slots are silent in
  it. Reset none. -/
  streamReset : Option (BitVec 32) := none
  /-- WFS pre-filter coefficients: applied, in use, before (R141). Reset the read-only default. -/
  wfsApp : WfsCoef := {}
  /-- Staging bank of the WFS pre-filter (R161, R291); none: the read-only default. -/
  wfsStg : Option (Biq × Biq) := none
  wfsLive : WfsCoef := {}
  wfsPrev : WfsCoef := {}
  /-- Direct paths 0 to 15 (R144). Reset off. -/
  dp : SMap DirectPath := []
deriving DecidableEq, Repr

/-! ## Outputs (chapter 05) -/

/-- Outputs, groups and sinks. -/
structure ChainState where
  /-- Outputs, 512 of them (R147): parameters, banks, filter states, meters. Reset at the defaults of R151. -/
  outs : SMap OutState := []
  /-- Groups 0 to 31, 512 bits each (R172). Reset empty (R485). -/
  groups : SMap (BitVec 512) := []
  /-- Sink assignments as applied, and as applied one and two ticks before (R292, R466). Reset empty. -/
  sinks : List SinkAsg := []
  sinks1 : List SinkAsg := []
  sinks2 : List SinkAsg := []
  sinks3 : List SinkAsg := []
  /-- AF of a function reset of the CVE (R496): block 5 fades out in input frame AF and in, with histories cleared, in
  frame AF + 1. Reset none. -/
  cveReset : Option (BitVec 32) := none
  /-- Coefficient swaps of the latest frames: block, element, AF (R165). Reset empty. -/
  swapped : List (Nat × Nat × BitVec 32) := []
  /-- Last complete digests and retained frames are in `PairState`. Outputs of the last launched frame by sink are in `OutState`. -/
  launched : Option (BitVec 32) := none
deriving DecidableEq, Repr

/-! ## Decimation chains and power stage (chapter 06) -/

/-- Power-channel parameters (R182, R211). `none` for X_REL is the default given as a function of fs. -/
structure PchCfg where
  voutFs : F36 := 0x41A000000#36
  vScale : F36 := 0x434800000#36
  iScale : F36 := 0x424800000#36
  dt : Nat := 24
  mMax : F36 := 0x3F75C28F6#36
  cmRamp : Nat := 30
  retryRamp : Nat := 60
  ocThr : Nat := 1000
  re0 : F36 := 0x410000000#36
  t0 : F36 := 0x41C800000#36
  alpha : F36 := 0x3B80C73AC#36
  rthC : F36 := 0x3F8000000#36
  cthC : F36 := 0x41A000000#36
  rthM : F36 := 0x3F0000000#36
  cthM : F36 := 0x44BB80000#36
  tMax : F36 := 0x433400000#36
  tMargin : F36 := 0x412000000#36
  reWin : Nat := 600
  reImin : F36 := 0x3D4CCCCCD#36
  reK : F36 := 0x3DCCCCCCD#36
  xRel : Option F36 := none
  exc : Biq := {}
deriving DecidableEq, Repr

/-- States of a power channel (R190). -/
inductive PchSt where
  | off | diag | cmUp | play | cmDown | ocWait | latched | safe
deriving DecidableEq, Repr

/-- A running gain ramp a(i) of a power channel (R184): none, w_in or w_out over one frame, linear over `m`
frames from frame `q`, or held at zero. -/
inductive PscRamp where
  | unity | fadeIn | fadeOut | linear (q m : Nat) | zero
deriving DecidableEq, Repr

/-- What a PLAY frame is emitted with: VOUT_FS, M_MAX, V_MAX (R186). -/
structure PlayPar where
  vout : F36
  mMax : F36
  vMax : F36
deriving DecidableEq, Repr

/-- The frame that a channel emits from the latest tick on, whose widths follow from the rail samples of the frame itself
(R186): none (gates low or both legs alike), a framed signal with the six samples before it, or, for a channel fed by a
direct path, the gain a(i) and the framed signal to fade with, and whether the legs are driven (R146). -/
inductive Emission where
  | none
  | play (par : PlayPar) (s : List F36)
  | fed (drive : Bool) (par : PlayPar) (gain framed : List F36)
deriving DecidableEq, Repr

/-- A power channel. -/
structure Pch where
  /-- Parameters as applied, newest first: at the latest tick and one, two and three ticks before (R27, R185). -/
  cfgs : List PchCfg := [{}, {}, {}, {}]
  /-- Staging bank of the excursion biquad (R161, R291). -/
  excStg : Biq := {}
  st : PchSt := .off
  rc : Nat := 0
  diagOk : Bool := false
  cause : Nat := 0
  /-- Position q of the common-mode ramp in carrier periods (R191). -/
  q : Nat := 0
  /-- Frames in the state that the rules time: OC_WAIT, PLAY without a trip (R192, R200). -/
  waited : Nat := 0
  ramp : PscRamp := .unity
  /-- The ramp comes from an overcurrent retry (R192). -/
  retry : Bool := false
  /-- A mute that detectors hold (R208). -/
  muted : Bool := false
  /-- A function reset in progress: frames done of its fade and fall (R194), the command's number. -/
  resetting : Option Nat := none
  resetUid : Option (BitVec 32) := none
  /-- Starts (true) and stops that take effect with output frame AF, at tick AF + 3 (R192). -/
  sched : List (BitVec 32 × Bool) := []
  /-- A trip seen and not yet handled at a tick: 0 comparator, 1 I_SENSE (R198 to R200). -/
  trip : Option Nat := none
  ocIgnored : Bool := false
  /-- The gates are held low by a trip, a safety cause or the state (R190, R198). -/
  gatesLow : Bool := true
  /-- Interpolator history: the last six samples of a(i) x(i), all that the 6R + 1 taps reach (R184). -/
  hist : List F36 := [0, 0, 0, 0, 0, 0]
  /-- The launched frame that waits one frame before emission (R185). -/
  next : List F36 := []
  /-- Emission in progress (R185, R186). -/
  emit : Emission := .none
  /-- Leg A and leg B high times per carrier period (R187): of the frame in progress while both legs are alike, of the latest
  complete one in PLAY. -/
  widths : List (Nat × Nat) := []
  e1 : F36 := 0
  e2 : F36 := 0
  /-- Counters of R294 PCH. -/
  pwmClip : Nat := 0
  ocComp : Nat := 0
  ocSense : Nat := 0
  ocIdle : Nat := 0
  /-- Thermal state (R212), latest Re_meas, window sums and filters (R213). -/
  tc : F36 := 0x41C800000#36
  tm : F36 := 0x41C800000#36
  /-- T_c was at or above T_MAX when last looked at (R212). -/
  hot : Bool := false
  reMeas : F36 := 0
  svi : F36 := 0
  sii : F36 := 0
  winFrames : Nat := 0
  lpV : BiqSt := {}
  lpI : BiqSt := {}
  /-- Excursion: EXC state, e_pk of the frame, ceiling c_x (R214). -/
  excSt : BiqSt := {}
  ePk : F36 := 0
  cx : F36 := 0x3F8000000#36
  /-- PROT_PK and PROT_MS as last delivered (R215, R216). -/
  protPk : F36 := 0x3F8000000#36
  protMs : F36 := 0x3F8000000#36
  /-- Sense frame just sealed (R302): volts and amperes (R210). -/
  v : List F36 := []
  i : List F36 := []
  /-- Telemetry sums: Σv², Σi², peaks, samples (R216). -/
  sumV : F36 := 0
  sumI : F36 := 0
  pkV : F36 := 0
  pkI : F36 := 0
  nSum : Nat := 0
  /-- Last diagnosis result and |Z| (R196, R293). -/
  diagRes : Nat := 0
  diagZ : F36 := 0
  /-- Number of the start or stop that waits for its completion (R194), true for a start. -/
  waitStart : Bool := false
  waitCmd : Option (BitVec 32) := none
deriving DecidableEq, Repr

/-- A rail controller (R201 to R204). `none` is the range-line default, which follows the journal limit. -/
structure Rail where
  min : Option F36 := none
  max : Option F36 := none
  head : F36 := 0x40A000000#36
  decay : F36 := 0x3DCCCCCCD#36
  hold : Nat := 60
  t : Option F36 := none
  needPrev : F36 := 0
  sinceRise : Nat := 0
  lowFrames : Nat := 0
  /-- Density numerator of the reference pin (R203). -/
  rho : Nat := 0
  /-- RAIL_TEST holds the group during diagnostics (R196). -/
  test : Option F36 := none
  /-- Sense frame in volts (R210), and the latest sample before it. -/
  v : List F36 := []
  last : F36 := 0
  okFrames : Nat := 0
deriving DecidableEq, Repr

/-- A load diagnosis in progress (R195, R196). Phases: 0 RAIL, 1 SG, 2 SS, 3 RISE, 4 TONE, 5 FALL. -/
structure Diag where
  mask : BitVec 16
  ridx : BitVec 32
  vtest : F36
  freq : F36
  open_ : F36
  short : F36
  rails : List F36
  phase : Nat := 0
  frames : Nat := 0
  /-- Result per channel: none while it passes (R196). -/
  res : SMap (Option Nat) := []
  sumV : SMap F36 := []
  sumI : SMap F36 := []
  ocHit : List Nat := []
  vHit : List Nat := []
deriving DecidableEq, Repr

/-- Decimation chains and the power stage. -/
structure PscState where
  /-- Decimation chains 0 to 39 (R205). Reset stopped, range-line defaults. -/
  dec : SMap Dec := []
  /-- Power channels 0 to 15 (R190). Reset OFF, DIAG_OK clear. -/
  pch : SMap Pch := []
  /-- Rail controllers 0 to 3 (R201). Reset at the programmed minimum. -/
  rail : SMap Rail := []
  /-- Diagnoses in progress, of rail groups with none in common (R195, R196). Reset none. -/
  diags : List Diag := []
  /-- T_AMB F36 (R211). Reset 25. -/
  tAmb : F36 := 0x41C800000#36
  /-- C of the last tick of normal length (R183, R442). Reset 200,000. -/
  cyc : Nat := 200000
  /-- C of the frame that is being emitted (R183). Reset 200,000. -/
  cycOut : Nat := 200000
deriving DecidableEq, Repr

/-- A record of the limit journal (R219). -/
structure LimitRec where
  count : Nat := 0
  role : Nat := 0
  fn : BitVec 32 := 0
  tag : BitVec 32 := 0
  /-- V_MAX (0.1 V) and I_MAX (0.01 A) per channel, L_g (0.1 V) per group. -/
  vmax : List Nat := []
  imax : List Nat := []
  rail : List Nat := []
  /-- Whether its CRC holds (R218). -/
  valid : Bool := true
deriving DecidableEq, Repr

/-- OTP and the limit journal (R218 to R221, R474, R506). (log 108: DEDUCED, safe.) -/
structure JournalState where
  /-- Used slots in slot order, at most 16 (R218). Reset empty (a new part). -/
  slots : List LimitRec := []
  /-- LIMIT_UNLOCK: first word seen; open; frames left while open, 0 to 600 (R506). Reset closed. -/
  armed : Bool := false
  unlocked : Bool := false
  openFor : Nat := 0
  /-- LIMIT_COMMITs in progress, each its command's number and the record: the first is being programmed, the next slot is
  programmed after it (R221). Reset empty. -/
  committing : List (BitVec 32 × LimitRec) := []
  /-- OTP_FAIL (R475). Reset 0. -/
  otpFail : Bool := false
deriving DecidableEq, Repr

/-! ## Redundant hubs (chapter 07) -/

/-- Pair states (R228). -/
inductive PairSt where
  | single | active | withdrawn | inSync | check | detached | resync | unfit | stopped
deriving DecidableEq, Repr

/-- Digests of one output frame (R233). -/
structure Digests where
  frame : BitVec 32
  mask : BitVec 17
  nc : Bool
  dig : List (BitVec 64)
deriving DecidableEq, Repr

/-- Operands and starting state of every chain for one rendered frame (R235). -/
structure Retained where
  frame : BitVec 32
  outs : SMap OutState
  /-- Routed bus frame of each output. -/
  bus : SMap (List F36)
  /-- The cores that first ran the tasks: the homes of the frame, as the dispatcher keeps them. -/
  homes : SMap Nat := []
  /-- The frame's tasks have ended: crosspoint sums, block 3 and convolution outputs stand in `outs`, and what each output
  rendered in `blk8`. -/
  closed : Bool := false
  /-- Which quarter of the retention area holds its operands. -/
  place : Nat := 0
deriving DecidableEq, Repr

/-- A re-run in progress (R235, R236). -/
structure Rerun where
  dfn : BitVec 32
  groups : BitVec 16
  started : BitVec 32
  done : Bool := false
  consistent : BitVec 16 := 0
  peer : Option (BitVec 16 × BitVec 16) := none
deriving DecidableEq, Repr

/-- A message sent over the drawbar (R225, R226): type and payload bytes. -/
structure DrawMsg where
  typ : Nat
  fn : BitVec 32
  seq : BitVec 32
  payload : List Byte
deriving DecidableEq, Repr

/-- What a spoke knows of one hub (R243 to R245). -/
structure HubSeen where
  /-- Frames for which a packet that makes the hub a candidate has arrived: frame, EPOCH, FIT (R244). Reset empty. -/
  cands : List (BitVec 32 × BitVec 32 × Bool) := []
  /-- Frames for which an audio packet of the hub has arrived, with its FIT (R245). Reset empty. -/
  audio : List (BitVec 32 × Bool) := []
deriving DecidableEq, Repr

/-- A copy of an item, or of the part of one that a frame takes, on its way to the standby (R237): the item's key, the bytes taken,
whether they end it, the messages that carry them. -/
structure CopyItem where
  key : Nat
  len : Nat
  last : Bool
  msgs : List (List Byte)
deriving DecidableEq, Repr

/-- Pair state of a hub, hub selection of a spoke. -/
structure PairState where
  /-- Pair state (R228), 4 bits. Reset STOPPED (R491). -/
  st : PairSt := .stopped
  /-- FIT in SINGLE state (R228, R240). Reset set. -/
  singleFit : Bool := true
  /-- EPOCH 32 bits (R223, R247). Reset 0. -/
  epoch : BitVec 32 := 0
  /-- Highest EPOCH seen from the peer (R223, R247). Reset 0. -/
  peerEpoch : BitVec 32 := 0
  /-- Cause of the last withdrawal or unfitness (R297). Reset 0. -/
  cause : Nat := 0
  /-- Causes found and not yet acted on (R240: FIT clears from the next tick). Reset empty. -/
  found : List Nat := []
  /-- Causes that a verdict found at the tick about to begin (R236): of that tick's frame. Reset empty. -/
  foundNext : List Nat := []
  /-- SEQ of sent messages (R225). Reset 0. -/
  seq : BitVec 32 := 0
  /-- Mirror sequence number: sent (active) or received with no gap (standby) (R227, R230). Reset 0. -/
  mseq : BitVec 32 := 0
  /-- MSEQ and RIDX of the last mirror applied (R247). Reset 0. -/
  applied : BitVec 32 := 0
  appliedRidx : BitVec 32 := 0
  /-- Mirrors sent and not yet acknowledged by a STATUS (R230). Reset empty. -/
  unacked : List (BitVec 32 × List Byte) := []
  /-- Drawbar messages sent, newest last, since the last tick (R224). Reset empty. -/
  sent : List DrawMsg := []
  /-- Last STATUS of the peer (R227). Reset none. -/
  peer : Option StatusMsg := none
  /-- A STATUS arrived since the last tick; missed heartbeats in a row; frames since a STATUS or PEER_STREAM
  packet of an active peer (R223, R227, R247). Reset clear, 0, 3. -/
  gotStatus : Bool := false
  missed : Nat := 0
  streamSilence : Nat := 3
  statusSilence : Nat := 3
  /-- Drawbar seen up (R249). Reset clear. -/
  up : Bool := false
  /-- Peer's ACTIVE rank above ours seen (R250). Reset clear. -/
  outranked : Option (BitVec 32) := none
  /-- MIRROR_DONE statuses: own and received (R232). Reset empty. -/
  ownDone : List (BitVec 32 × Nat × BitVec 32) := []
  peerDone : List (BitVec 32 × Nat) := []
  /-- MIRROR_DONE messages to repeat: MSEQ, status, repeats left (R232). Reset empty. -/
  doneRepeat : List (BitVec 32 × Nat × Nat) := []
  /-- Own digests of the last frames (R233, R234) and the retained frames (R235). Reset empty. -/
  own : List Digests := []
  retained : List Retained := []
  /-- Matched frames, skipped comparisons, mismatches, resynchronisations (R234, R293). Reset 0. -/
  matched : Nat := 0
  skipped : Nat := 0
  mismatches : Nat := 0
  resyncs : Nat := 0
  /-- Matched frames in a row in COMPARE, and resynchronisations in a row that failed (R239). Reset 0. -/
  run : Nat := 0
  failsInRow : Nat := 0
  /-- Re-run in progress (R235). Reset none. -/
  rerun : Option Rerun := none
  /-- Resynchronisation stage 0 CONFIG to 4 COMPARE, frames since the stage's last item was loaded, items to load at the next
  tick (R237, R238). Reset 0. -/
  stage : Nat := 0
  stageWait : Nat := 0
  items : List (Nat × BitVec 32 × ResyncItem) := []
  /-- Mirrors received beyond a missing one (R230): MSEQ, AF, RIDX, MARKS, descriptor. Reset empty. -/
  ahead : List (BitVec 32 × BitVec 32 × BitVec 32 × Byte × List Byte) := []
  /-- Items of the stage that the standby has not yet loaded, by key; in CONFIG those whose digests differ, none before the digests
  came (R237). Reset none. -/
  wanted : Option (List Nat) := none
  /-- Copy being served: stage asked for by the standby, keys of the items left, bytes of the first one sent, and what this frame
  has taken (R237). Reset none. -/
  serving : Option Nat := none
  left : List Nat := []
  leftOff : Nat := 0
  copying : List CopyItem := []
  /-- The authority field of the packets of the frame that is being queued (R243). Reset empty. -/
  authority : List Byte := []
  /-- A HANDOVER to take place at a frame (R248). Reset none. -/
  handover : Option (BitVec 32) := none
  /-- Reset or power-cycle delayed by the withdrawal: frames left, kind (R242): 1 DEV_RESET, 2 FLR, 3 power cycle by host, 4 by watchdog. Reset none. -/
  delayed : Option (Nat × Nat) := none
  /-- Peer withdrew or shows FIT clear (R247). Reset clear. -/
  peerUnfit : Bool := false
  /-- Spoke: hubs A and B as seen, selected hub (0 none, 1 A, 2 B), last supplier of each channel, counters (R244 to R246). Reset none. -/
  hubA : HubSeen := {}
  hubB : HubSeen := {}
  selected : Nat := 0
  supplier : SMap Nat := []
  /-- Hub switches seen (R293). Reset 0. -/
  switches : Nat := 0
  /-- Persisting THERMAL cause (R241); a CLOCK cause persists while the system PLL is unlocked. Reset clear. -/
  thermalNow : Bool := false
deriving DecidableEq, Repr

/-! ## Dispatcher and render cores (chapters 10, 11) -/

/-- Built-in and custom tasks (R298). -/
inductive TaskKind where
  | front (n : Nat) | back (n : Nat) | ing (o : Nat) | md (o : Nat) | br (s : Nat) | pr (c : Nat) | tl | custom (i : Nat)
deriving DecidableEq, Repr

/-- An entry of the task table (R299): kind, flow (the ID of the flow's first task), position, class, cost, resident
words of the flow (in its first task), operand selectors (R302), entry address of a custom task. -/
structure TaskEntry where
  kind : TaskKind
  flow : Nat
  pos : Nat
  background : Bool := false
  cost : Nat
  state : Nat := 0
  ops : List Nat
  entry : Nat := 0
deriving DecidableEq, Repr

/-- Core states (R310). -/
inductive CoreSt where
  | available | spare | leaving | offline | joining
deriving DecidableEq, Repr

/-- Work outside the task table (R306, R235): the spectra of a coefficient load, the copy of one item to the standby, the
FRONT or BACK task of an output in a re-run. -/
inductive Job where
  | spectra (uid : BitVec 32) | copy (item : Nat) | reFront (n : Nat) | reBack (n : Nat)
deriving DecidableEq, Repr

/-- Work that runs, waits or is suspended on a core: task, input frame, metadata record of an MD task. Work outside the task
table carries its job, and task 0xFFFF. -/
structure Work where
  task : Nat
  frame : BitVec 32
  record : Option (Nat × PendRec) := none
  job : Option Job := none
  /-- Background work (R306): metadata beyond the first record of an object in a frame, custom tasks of CLASS 1, jobs. -/
  bg : Bool := false
  /-- The dispatcher discards its result (R40). -/
  discard : Bool := false
  /-- Place in the order of release (R305). -/
  rel : Nat := 0
deriving DecidableEq, Repr

/-- One core as the dispatcher sees it. -/
structure CoreSlot where
  st : CoreSt := .available
  running : Option Work := none
  ready : List Work := []
  suspended : Option Work := none
  /-- Suspended execution state (the context record, R346) is in `CoreState.saved`. -/
  unrepaired : Bool := false
deriving DecidableEq, Repr

/-- A state copy (R312 to R314): the core it empties (none when it gathers the orphan set), the core that takes the
whole scratch (none when distributed), the flows it moves with their new core and place, the command's number, whether
a fault caused it, and whether it has started. -/
structure CopyJob where
  src : Option Nat
  dest : Option Nat
  moves : List (Nat × Nat × Nat) := []
  uid : Option (BitVec 32) := none
  fault : Bool := false
  started : Bool := false
deriving DecidableEq, Repr

/-- A trace record (R317). Its CYC is a free value: the model keeps no cycle count. -/
structure TraceRec where
  typ : Nat
  core : Nat
  task : Nat
  fn : BitVec 32
  arg : Nat
  depth : Nat
  rseq : Nat
  cyc : Nat := 0
deriving DecidableEq, Repr

/-- Trace control and buffer (R271, R319). -/
structure TraceState where
  /-- Recording, SEL, CL_MASK, records left (none: unbounded), RSEQ. Reset stopped. -/
  on : Bool := false
  sel : Byte := 0
  clMask : Byte := 0
  left : Option Nat := none
  rseq : Nat := 0
  /-- On-chip buffer of 16,384 records (R271). Reset empty. -/
  buf : List TraceRec := []
  /-- TRACE_LOST (R271). Reset 0. -/
  lost : Nat := 0
deriving DecidableEq, Repr

/-- The dispatcher. -/
structure DispState where
  /-- Task table, ID = index (R299). Reset empty. -/
  tasks : List TaskEntry := []
  /-- Operand matching store, entry 2 x ID + (k mod 2): one bit per slot (R303). Reset clear. -/
  store : SMap (BitVec 8) := []
  /-- Completed tasks of the frames not yet cancelled: task ID and frame (R301). Reset empty. -/
  finished : List (Nat × BitVec 32) := []
  /-- The frame that the latest tick cancelled (R304): later ones are open. Reset none. -/
  cancelled : Option (BitVec 32) := none
  /-- Releases so far, the order of the ready lists (R305). Reset 0. -/
  releases : Nat := 0
  /-- Home core of each flow, by its first task's ID, plus one; 0 for none (R308). Reset none. -/
  homes : SMap Nat := []
  /-- Scratch base of each flow's resident state (R308). Reset 0. -/
  places : SMap Nat := []
  /-- Cores 0 to 63 (R305, R310). Reset AVAILABLE. -/
  cores : SMap CoreSlot := []
  /-- Background list (R306), and the re-run tasks that wait for a core (R235). Reset empty. -/
  background : List Work := []
  reruns : List Work := []
  /-- MD runs of each object in the frame (R306). Reset empty. -/
  mdRuns : SMap Nat := []
  /-- State copy of the frame, and copies that wait for a later frame (R312, R313). Reset none. -/
  copy : Option CopyJob := none
  copyNext : List CopyJob := []
  /-- Orphan set: flows of a core lost without a spare (R313). Reset empty. -/
  orphans : List Nat := []
  /-- BUDGET_LOST (R39). Reset 0. -/
  budgetLost : Bool := false
  /-- Cores whose cluster reset waits for the current task, with the command's number (R316). Reset empty. -/
  resets : List (Nat × BitVec 32) := []
  /-- A dispatcher reset in progress: the tick at which it clears (R315). Reset none. -/
  resetAt : Option (BitVec 32) := none
  trace : TraceState := {}
deriving DecidableEq, Repr

/-- One level of the repeat stack (R344): remaining count, body start, body end. -/
structure RepLevel where
  rc : BitVec 16
  rs : BitVec 16
  re : BitVec 16
deriving DecidableEq, Repr

/-- A transfer in progress on a tag (R338). -/
structure Xfer where
  write : Bool
  scratch : Nat
  count : Nat
  addr : Nat
  /-- Place in the order of issue: transfers of one core are performed in it (R338). -/
  ord : Nat := 0
  /-- Words that an aborted task's write had to send, of which the port sends what it had begun (R379). -/
  data : List Word72 := []
deriving DecidableEq, Repr

/-- Registers of a core that a special-register write sets two instructions later (R341). -/
structure LateWrite where
  sreg : Nat
  value : BitVec 32
deriving DecidableEq, Repr

/-- Register set and execution state of one render core (R323, R324). (log 12: DESIGN CHOICE, unsafe.) -/
structure CoreRegs where
  /-- D[0] to D[31], 72 bits. Reset all halves +0. -/
  d : SMap Word72 := []
  /-- A[0] to A[15], 17 bits. Reset 0. -/
  a : SMap (BitVec 17) := []
  /-- RB, RL, 17 bits, 8 each. Reset 0. -/
  rb : SMap (BitVec 17) := []
  rl : SMap (BitVec 17) := []
  /-- ST[0] to ST[7], 17 bits signed. Reset 0. -/
  st : SMap (BitVec 17) := []
  /-- PB0 to PB3, 32 bits. Reset 0. -/
  pb : SMap (BitVec 32) := []
  /-- Repeat stack, innermost first, at most two levels (RC, RS, RE, RD). Reset empty. -/
  reps : List RepLevel := []
  /-- LR 16 bits. Reset 0. -/
  lr : BitVec 16 := 0
  /-- FLAGS: SAT, N, Z (R324). Reset 0. -/
  sat : Bool := false
  n : Bool := false
  z : Bool := false
  /-- SB 15 bits, SL 16 bits, TID 12 bits, FN 32 bits: per task. -/
  sb : Nat := 0
  sl : Nat := 0
  tid : Nat := 0
  fn : BitVec 32 := 0
  /-- CYC 32 bits saturating. Reset 0. -/
  cyc : Nat := 0
  /-- XE bits of XST (R324). Reset 0. -/
  xe : BitVec 4 := 0
  /-- ARG[0] to ARG[7], 20 bits: per task. -/
  arg : SMap Nat := []
  /-- Address of the next instruction (R321). Reset the task's entry. -/
  pc : BitVec 16 := 0
  /-- Delay slots left and the target of a taken branch (R342). Reset none. -/
  slots : Nat := 0
  target : Option (BitVec 16) := none
  /-- Non-interruptible instructions left (R345). Reset 0. -/
  holdN : Nat := 0
  /-- A REP or REPD was the latest instruction: the boundary before its first body instruction is not interruptible
  (R345). Reset clear. -/
  repEdge : Bool := false
  /-- An instruction stalls on a busy tag or transfer (R338): CYC counts on while it does. Reset clear. -/
  stalled : Bool := false
  /-- Write of an addressing register by the instruction before, visible to the next but one (R341). Reset none. -/
  late : List LateWrite := []
  /-- Mask of a WAITX that waits, a DONE that waits, an XFER that waits for its tag (R326, R338). Reset none. -/
  waitMask : Option (BitVec 4) := none
  doneWait : Bool := false
  /-- Cycle at which each D register and the FLAGS are available, and the divide unit free (R340). Reset 0. -/
  dReady : SMap Nat := []
  flagsReady : Nat := 0
  divReady : Nat := 0
  /-- Registers whose latest write is an FMAC or FMSC (R340: accumulator bypass), with the cycle of its issue. -/
  macAt : SMap Nat := []
deriving DecidableEq, Repr

/-- A suspended background task that waits beside another on the core it was moved to: its registers, its transfers and the
words of its working area (R312). -/
structure Parked where
  work : Work
  regs : CoreRegs
  xfers : SMap (Option Xfer) := []
  area : SMap Word72 := []
deriving DecidableEq, Repr

/-- One render core. -/
structure CoreState where
  regs : CoreRegs := {}
  /-- FCAUSE 32 bits (R348). Reset 0, kept from task to task. -/
  fcause : BitVec 32 := 0
  /-- Scratch, 32,768 words of 72 bits (R320). Reset 0 (R357). -/
  scratch : SMap Word72 := []
  /-- Scratch words whose code is uncorrectable (R313). Reset empty. -/
  bad : List Nat := []
  /-- Transfers on tags 0 to 3 (R338). Reset none. -/
  xfers : SMap (Option Xfer) := []
  /-- Registers of the suspended background task (the context record, R346) and its transfers, which complete on their
  own. Reset none. -/
  saved : Option CoreRegs := none
  sxfers : SMap (Option Xfer) := []
  /-- Scratch words with a single-bit error that wait for the read that corrects them and its write-back (R356). Reset empty. -/
  soft : List Nat := []
  /-- Transfers of an aborted task that the port completes, with their tags; the core issues none before (R379). Reset none. -/
  dead : List (Nat × Xfer) := []
  /-- Suspended tasks moved here beside the core's own background task (R312). Reset none. -/
  parked : List Parked := []
deriving DecidableEq, Repr

/-! ## SRAM, crossbar, DRAM (chapters 12, 13) -/

/-- Shared store, ECC and patrol. -/
structure MemState where
  /-- Shared store, 1,048,576 words of 72 bits (R355). Reset 0 (R357). -/
  store : SMap Word72 := []
  /-- Shared-store words whose code is uncorrectable (R356). Reset empty. -/
  bad : List Nat := []
  /-- Words with a single-bit error that wait for the read that corrects them and its write-back (R356). Reset empty. -/
  wb : List UpsetAt := []
  /-- Corrected and uncorrectable counts and latest address: bays, scratch, store (R356, R512). Reset 0, 0xFFFF_FFFF. -/
  bayCe : Nat := 0
  bayUe : Nat := 0
  bayAddr : BitVec 32 := 0xFFFFFFFF#32
  scrCe : Nat := 0
  scrUe : Nat := 0
  scrAddr : BitVec 32 := 0xFFFFFFFF#32
  ssCe : Nat := 0
  ssUe : Nat := 0
  ssAddr : BitVec 32 := 0xFFFFFFFF#32
  /-- PATROL_EN (R368). Reset 1. -/
  patrolEn : Bool := true
  /-- Patrol position, failures, latest failing region (R364, R367, R512). Reset 0; kept. -/
  pos : Nat := 0
  fails : Nat := 0
  lastFail : Nat := 0
  /-- Remap table: region to spare, spares used and unusable per bay (R367). Reset empty; kept. -/
  remap : SMap Nat := []
  used : SMap Nat := []
  unusable : SMap Nat := []
  /-- Spare regions marked unusable, as bay and spare (R357). Reset empty; kept. -/
  badSpares : List (Nat × Nat) := []
  /-- Patrol shadow buffers, 64 words each: key 64 x instance + word; bays 0 to 15, cores 16 to 79, shared store 80 (R355). Reset
  0 (R357). -/
  shadow : SMap Word72 := []
  /-- Instruction words whose code is uncorrectable: key 65,536 x cluster + address (R321). Reset empty. -/
  imemBad : List Nat := []
deriving DecidableEq, Repr

/-- A pending or granted request at a target (R374, R376). -/
structure XPending where
  req : XReq
  qos : Nat
  order : Nat
deriving DecidableEq, Repr

/-- An entry of an error log (R380, R398). -/
structure XLogEntry where
  master : Nat
  target : Nat
  code : Nat
  addr : Nat
  fn : BitVec 32
  seq : Nat
deriving DecidableEq, Repr

/-- The crossbar. -/
structure XbarState where
  /-- Requests waiting per target, in arrival order (R374). Reset empty. -/
  waiting : SMap (List XPending) := []
  /-- Transaction in service per target (R374). Reset none. -/
  serving : SMap (Option XPending) := []
  /-- Master last granted, key 16 x target + QoS (R374). Reset none. -/
  lastGrant : SMap (Option Nat) := []
  /-- Requests seen so far (arrival order). Reset 0. -/
  count : Nat := 0
  /-- Last response of each master: codes and read words (R377). Reset empty. -/
  answers : SMap (List Nat × List Word72) := []
  /-- Responses to reads that wait for an earlier read of their master at another target: target, request, codes, words (R376).
  Reset empty. -/
  held : List (Nat × XPending × List Nat × List Word72) := []
  /-- Masters in reset (R379). Reset empty. -/
  resetting : List Nat := []
  /-- Error log, 16 entries circular, count of entries ever written (R380, R515). Reset empty. -/
  log : List XLogEntry := []
  seq : Nat := 0
  /-- DECERR, SLVERR, WCOLL counts (R380). Reset 0. -/
  decerr : Nat := 0
  slverr : Nat := 0
  wcoll : Nat := 0
  /-- HW_FAULT counts of kinds 1 to 3 (R378). Reset 0. -/
  hw : SMap Nat := []
deriving DecidableEq, Repr

/-- An entry of a DRAM error log (R398, R514). -/
structure DLogEntry where
  kind : Nat
  ca : Nat
  master : Nat
  fn : BitVec 32
  seq : Nat
deriving DecidableEq, Repr

/-- One DRAM channel. -/
structure DramChan where
  /-- Initialised and usable (R386); failed with the byte lane (R387, R397). Reset not initialised. -/
  ready : Bool := false
  failed : Option Nat := none
  /-- Detected configuration (R477), 0xF before. Reset 0xF. -/
  det : Nat := 0xF
  /-- Open row per bank, key rank x 16 + bank group x 4 + bank (R390). Reset closed. -/
  rows : SMap (Option Nat) := []
  /-- Owed refreshes O (R393). Reset 0. -/
  owed : Nat := 0
  /-- HOT, cool readings in a row, hot readings (R392). Reset cool. -/
  hot : Bool := false
  cool : Nat := 0
  hotCnt : Nat := 0
  /-- Scrub position, channel byte address (R396). Reset 0. -/
  scrub : Nat := 0
  /-- Commands issued, newest first, at most 16, as kind x 2^40 + CA with kinds 0 read, 1 write, 2 refresh, 3 activation,
  4 precharge (R397), replays of the alert in progress, ALERT_N low. Reset empty. -/
  retry : List Nat := []
  replays : Nat := 0
  alert : Bool := false
  /-- ZQ short calibrations (R394) and temperature readouts done. Reset 0. -/
  zq : Nat := 0
  /-- Self-refresh: 0 none, 1 entered, 2 abandoned and waiting to retry (R399, R400). Reset 0. -/
  selfRef : Nat := 0
  /-- MR2 is set to the extended self-refresh temperature range (R399). Reset clear. -/
  extended : Bool := false
  /-- Error log, entries ever written, counts per KIND, replay count (R398). Reset empty. -/
  log : List DLogEntry := []
  seq : Nat := 0
  cnt : SMap Nat := []
  replayCnt : Nat := 0
  /-- Words (CA / 8) with a single-bit error not yet read, corrected words that wait for their write-back (R395), words
  with a bad code. Reset empty. -/
  soft : List Nat := []
  wb : List Nat := []
  bad : List Nat := []
  /-- Three replays failed: the transaction in service ends with SLVERR (R397). Reset clear. -/
  failNow : Bool := false
deriving DecidableEq, Repr

/-- DRAM. -/
structure DramState where
  /-- DRAM bytes of both channels by physical byte address PA (R384). Reset 0 (R386). -/
  bytes : List Host.Cell := []
  /-- The engines' lines and slots hold the contents of their areas: since the start of rendering (R44, R388). Reset clear. -/
  lines : Bool := false
  /-- Byte addresses within the CVE's slots that another master wrote last: `bytes` holds them (R160, R389). Reset empty. -/
  foreign : List Nat := []
  /-- Channels 0 and 1. -/
  ch : SMap DramChan := []
deriving DecidableEq, Repr

/-! ## Ethernet ports (chapter 14) -/

/-- A receive rule (R409, R523). -/
structure RxRule where
  en : Bool := false
  match_ : BitVec 5 := 0
  vid : BitVec 12 := 0
  pcp : BitVec 3 := 0
  etype : BitVec 16 := 0
  da : BitVec 48 := 0
  daPlen : Nat := 0
  sid : BitVec 64 := 0
  action : Nat := 0
deriving DecidableEq, Repr

/-- Where a received frame goes (R408). -/
inductive RxDest where
  | daDrop | drop | control | drawbar | stream (slot : Nat) | queue (q rule : Nat)
deriving DecidableEq, Repr

/-- A frame in a port's staging buffer (R278). -/
structure StagedFrame where
  queue : Nat
  rule : Nat
  bytes : List Byte
  ts : BitVec 32
  tsValid : Bool
  fn : BitVec 32
deriving DecidableEq, Repr

/-- A host frame ready to be sent (R279). -/
structure TxHostFrame where
  queue : Nat
  bytes : List Byte
  flags : Byte
  ptpOfs : Nat
  udpOfs : Nat
  htag : BitVec 32
  /-- Ring position of the LAST descriptor and descriptors it spans. -/
  last : BitVec 32
  span : Nat
deriving DecidableEq, Repr

/-- A two-step capture entry (R436). -/
structure TsqEntry where
  htag : BitVec 32
  ts : BitVec 32
  frac : BitVec 16
  lost : Nat
  cflags : Byte
  fn : BitVec 32
deriving DecidableEq, Repr

/-- One Ethernet port. -/
structure Port where
  /-- MAC_ADDR 48 bits, IPV4_ADDR 32 bits (R404, R522). Reset 0. -/
  mac : BitVec 48 := 0
  ipv4 : BitVec 32 := 0
  /-- Low half of MAC_ADDR as last written (R499, R522). -/
  macLow : BitVec 32 := 0
  promisc : Bool := false
  pauseEn : Bool := false
  defQueue : Nat := 0
  eeeEn : Bool := false
  eeeIdle : Nat := 100
  eeeTw : Nat := 17
  rxAdj : BitVec 16 := 0
  txAdj : BitVec 16 := 0
  phy : Nat := 0
  fec : Nat := 0
  maxFrame : Nat := 0
  link : Bool := false
  /-- Low-power idle: 0 no, 1 asserted, 2 waking (R412). -/
  lpi : Nat := 0
  rules : SMap RxRule := []
  /-- Frame in reception: destination and timestamp (R408). -/
  rxNow : Option (RxDest × BitVec 32 × Bool) := none
  /-- Last frame for the stream engine whose FCS checked good, its slot. -/
  streamNow : Option Nat := none
  staging : List StagedFrame := []
  /-- Media packets and drawbar messages waiting (R410, R424); frames sent since the latest tick. Reset empty. -/
  media : List (List Byte) := []
  sentLog : List (List Byte) := []
  /-- Frame in transmission: media packet or host frame (R410). -/
  txNow : Option (List Byte × Option TxHostFrame) := none
  paused : Bool := false
  pauseQuanta : Nat := 0
  /-- Counters of R413 by index, snapshots (R414), STAT_HALF raised. -/
  stat : SMap Nat := []
  snap : SMap Nat := []
  half : List Nat := []
  /-- RX_STAGE_FULL, RX_NOBUF, RX_TRUNC, M2 discards (R294). -/
  stageFull : Nat := 0
  noBuf : Nat := 0
  trunc : Nat := 0
  m2Discard : Nat := 0
  oneStepFail : Nat := 0
  tsqOvf : Nat := 0
  tsqLost : Nat := 0
  tsq : List TsqEntry := []
  tsqW : List (BitVec 32) := [0, 0, 0, 0]
  /-- A function reset in progress: RIDX, frames waited (R407). -/
  resetting : Option (BitVec 32 × Nat) := none
deriving DecidableEq, Repr

/-- Ethernet ports, transmit streams and MDIO. -/
structure EthState where
  /-- Ports M0 to M3 (R403). Reset link down; PAUSE_EN set on M3 alone (R522). -/
  ports : SMap Port := [(3, { pauseEn := true })]
  /-- Transmit slots as applied, and as applied one and two ticks before (R425). Reset off. -/
  tx : SMap TxSlot := []
  tx1 : SMap TxSlot := []
  tx2 : SMap TxSlot := []
  /-- Packets sent per slot, whose low 8 bits are sequence_num, and mr (R419). Reset 0. -/
  seq : SMap (BitVec 16) := []
  mr : Bool := false
  /-- Object-audio slots whose packets of the running frame are queued (R421). Reset empty. -/
  queued : List Nat := []
  /-- MDIO_STAT: BUSY, read data (R522). Reset 0. -/
  mdioBusy : Bool := false
  mdioRead : Bool := false
  mdioData : BitVec 16 := 0
  /-- Frame on the MDIO lines: OP, PHYAD, REGAD or DEVAD, data. -/
  mdioFrame : Option (Nat × BitVec 5 × BitVec 5 × BitVec 16) := none
deriving DecidableEq, Repr

/-! ## Time and clocks (chapter 15) -/

/-- Servo states (R441). -/
inductive ServoSt where
  | acquire | locked | hold
deriving DecidableEq, Repr

/-- Clock states (R447). -/
inductive ClkSt where
  | off | acquire | locked | holdover
deriving DecidableEq, Repr

/-- An epoch pair (R430): seconds and nanoseconds of CUR and NEXT. -/
structure Epoch where
  secCur : Nat := 0
  nsCur : Nat := 0
  secNext : Nat := 0
  nsNext : Nat := 0
deriving DecidableEq, Repr

/-- Device time, servo, media clock. -/
structure ClkState where
  /-- Device time counter, 72 bits: 32 integer and 40 fraction bits (R428). Reset 0. -/
  time : BitVec 72 := 0
  /-- The counter runs (system PLL has locked once, R428). Reset clear. -/
  timeOn : Bool := false
  /-- TIME_FRAC, TIME_FN latches (R429). Reset 0. -/
  timeFrac : BitVec 16 := 0
  timeFn : BitVec 32 := 0
  /-- Epoch pair and EPOCH_VALID (R430). Reset 0, clear. -/
  epoch : Epoch := {}
  epochValid : Bool := false
  /-- THE MODEL'S OWN: TIME_NS has passed zero and the pair has not been advanced yet (R431). Reset clear. -/
  wrapped : Bool := false
  /-- y, yI, yφ in units of 2^−40 (R439, R445). Reset FREE_TRIM = 0. -/
  y : Int := 0
  yI : Int := 0
  yPhi : Int := 0
  /-- Servo state, sample counts in a row, T_MEAS of the last sample, frames since it (R438 to R441). Reset ACQUIRE. -/
  servo : ServoSt := .acquire
  good : Nat := 0
  badN : Nat := 0
  lastMeas : Option (BitVec 32) := none
  sinceSample : Nat := 0
  stale : Nat := 0
  rangeWait : Nat := 0
  /-- A step has occurred since the last FN step (R442). Reset clear. -/
  stepped : Bool := false
  /-- SERVO_KP, SERVO_KI, STEP_THR, LOCK_THR, LOCK_CNT, UNLOCK_THR, UNLOCK_CNT, SERVO_TIMEOUT, FREE_TRIM, REF_QUAL (R440, R450, R508). Reset as their defaults. -/
  kp : Nat := 1100
  ki : Nat := 137
  stepThr : Nat := 10000
  lockThr : Nat := 1000
  lockCnt : Nat := 8
  unlockThr : Nat := 10000
  unlockCnt : Nat := 4
  timeout : Nat := 6000
  freeTrim : Int := 0
  refQual : Nat := 600
  /-- Clock state, reference in use (R444, R447). Reset OFF, FREE (3). -/
  st : ClkSt := .off
  ref : Nat := 3
  wclk : Nat := 0
  /-- Step of R450 under way (0 none, 1 qualify, 2 align, 3 band search, 4 lock), its frames, failures. Reset 0. -/
  step : Nat := 0
  stepFrames : Nat := 0
  failures : Nat := 0
  /-- A change to SERVO while stopped steps the tick phase after LOCKED (R452). Reset clear. -/
  stepOnLock : Bool := false
  /-- TICK_ALIGNED, TICK_PHI (R445). Reset 0. -/
  aligned : Bool := false
  phi : Int := 0
  /-- CLK_CORE cycles and MCLK cycles of the latest 61 ticks, newest first; frequency word of the holdover clock that stands
  for an external reference, in units of 2^−40 (R448). Reset empty, 0. -/
  periods : List (Nat × Nat) := []
  holdWord : Int := 0
  /-- System PLL locked; SYS_CLK_LOST and its count (R443, R511). Reset unlocked, 0. -/
  sysLocked : Bool := false
  sysLost : Bool := false
  sysLosses : Nat := 0
  /-- MCLK cycles of the lengthened tick in progress (R442). Reset 4,096. -/
  tickLen : Nat := 4096
  /-- REG_DROP, REG_REFUSED (R509, R511). Reset 0. -/
  regDrop : Bool := false
  regRefused : Bool := false
  /-- Registers SRV_OFS, SRV_TMEAS, EP_* (R508). Reset 0. -/
  srvOfs : BitVec 64 := 0
  srvMeas : BitVec 32 := 0
  epSecCur : BitVec 48 := 0
  epNsCur : BitVec 32 := 0
  epSecNext : BitVec 48 := 0
  epNsNext : BitVec 32 := 0
  /-- Tick running (R447, R487). Reset clear. -/
  tickOn : Bool := false
  /-- THE MODEL'S OWN: a tick has run since the tick last started, so the next one is not frame 0 (R19). Reset clear. -/
  ticked : Bool := false
deriving DecidableEq, Repr

/-! ## AES3 ports (chapter 16) -/

/-- Receiver states (R457). -/
inductive AinSt where
  | idle | acquire | locked
deriving DecidableEq, Repr

/-- One subframe of a receiver: channel-status and user blocks (R459, R460). -/
structure AinSub where
  cs : List Byte := List.replicate 24 0
  csFn : BitVec 32 := 0
  accepted : Bool := false
  u : List Byte := List.replicate 24 0
  v1 : Nat := 0
  /-- Block being assembled: bits of C and U since the Z preamble, and FN of the Z. -/
  cBits : List Bool := []
  uBits : List Bool := []
  zFn : BitVec 32 := 0
  last : Int := 0
  naMuted : Bool := false
  /-- Fade of the next sealed frame by NA_MUTE: 1 in, 2 out. -/
  naFade : Nat := 0
deriving DecidableEq, Repr

/-- One AES3 receiver. (log 27: DEDUCED, unsafe.) -/
structure AinPort where
  /-- AIN_EN, CS_CHECK, NA_MUTE as written and as in force from the last block start (R461). -/
  en : Bool := true
  check : Nat := 0
  naMute : Bool := true
  enNow : Bool := true
  checkNow : Nat := 0
  naNow : Bool := true
  /-- State and rate (R457, R470). -/
  st : AinSt := .acquire
  rate : Nat := 0
  parityErr : Nat := 0
  crccErr : Nat := 0
  losses : Nat := 0
  /-- Parity failures in the block (R456), frames in the block. -/
  parityRun : Nat := 0
  frames : Nat := 0
  sub0 : AinSub := {}
  sub1 : AinSub := {}
deriving DecidableEq, Repr

/-- One subframe of a transmitter (R463, R464). -/
structure AoutSub where
  csStg : List Byte := 1 :: List.replicate 23 0
  csLive : List Byte := 1 :: List.replicate 23 0
  uStg : List Byte := List.replicate 24 0
  uLive : List Byte := List.replicate 24 0
  vTx : Bool := false
  csCommit : Bool := false
  uCommit : Bool := false
  /-- Channel status and user bits of the block that is being sent, and the validity bit of the frame (R463, R464, R468).
  Reset none sent. -/
  csOut : List Byte := []
  uOut : List Byte := []
  vOut : Bool := false
  /-- Sample buffer of 2N samples, the samples of the frame that ended as they were sent, and the last one (R465, R144). -/
  buf : List Int := []
  sent : List Int := []
  last : Int := 0
deriving DecidableEq, Repr

/-- One AES3 transmitter. -/
structure AoutPort where
  en : Bool := false
  csSame : Bool := false
  stageBusy : Bool := false
  s0 : AoutSub := {}
  s1 : AoutSub := {}
  underrun : Nat := 0
  overrun : Nat := 0
  blockCut : Nat := 0
  /-- A function reset: 1 fade out the next frame, 2 waits for a block start, 3 fade in; its RIDX (R467). -/
  reset : Nat := 0
  resetRidx : Option (BitVec 32) := none
  /-- AF of the function reset in progress (R467). -/
  resetAt : BitVec 32 := 0
  /-- How the frame in progress is sent (R467): 0 plain, 1 faded out, 2 as zero samples, 3 faded in. -/
  mode : Nat := 0
  /-- An FN step moved the block phase: the next block start cuts the block in progress (R465). -/
  cut : Bool := false
deriving DecidableEq, Repr

/-- AES3 ports. -/
structure AesState where
  /-- Receivers AIN0 to AIN7. Reset AIN_CTL 0x9. -/
  ain : SMap AinPort := []
  /-- Transmitters AOUT0 to AOUT7. Reset off. -/
  aout : SMap AoutPort := []
deriving DecidableEq, Repr

/-! ## Power, reset, registers (chapters 17, 18) -/

/-- Supplies, reset, quiet state, temperature. -/
structure PwrState where
  /-- Supplies within their ranges (R471, R472). Reset set. -/
  powered : Bool := true
  /-- The device is held in reset (R472, R490, R492, R494). Reset clear. -/
  inReset : Bool := false
  /-- RESET_N held low (R490). Reset high. -/
  resetN : Bool := true
  /-- Held in reset until: thermal recovery, system PLL lock, VDD_IO33 falls (R443, R492, R494). Reset clear. -/
  thermalHold : Bool := false
  pllHold : Bool := false
  cycleHold : Bool := false
  /-- Causes of the reset in progress or of the latest reset (R491, R505). Reset POWER. -/
  cause : BitVec 7 := 1
  nextCause : BitVec 7 := 0
  /-- Committed or strapped role: spoke (R1). Reset hub (ROLE_SEL low). -/
  spoke : Bool := false
  /-- SETUP_READY, SRAM cleared, OTP read (R476). Reset clear. -/
  setupReady : Bool := false
  sramClear : Bool := false
  otpRead : Bool := false
  /-- PWR_CTL.QUIET, QUIET_ACTIVE, QUIET_REFUSED, HB_WD_EN (R487, R505). Reset 0, 0, 0, 1. -/
  quiet : Bool := false
  quietRefused : Bool := false
  hbWdEn : Bool := true
  /-- PWR_CYCLE_REQ_N driven low; requested by the host (R493, R494). Reset high impedance. -/
  cycleReq : Bool := false
  wdAsked : Bool := false
  hostAsked : Bool := false
  /-- Junction temperature and its highest value since reset, 1/16 °C (R475, R502). Reset 0. -/
  temp : Int := 0
  tempMax : Int := 0
  /-- Rendering runs (R44, R503), its first frame S, RENDER_STOP's fade frame. Reset stopped. -/
  rendering : Bool := false
  startFn : BitVec 32 := 0
  /-- The tasks of the first frame S have been released (R21, R44). -/
  started : Bool := false
  stopAt : Option (BitVec 32) := none
  /-- FN step fades: 1 fade to silence in this frame, 2 fade in over the first frame after (R19). Reset 0. -/
  stepFade : Nat := 0
  /-- CLAMPED, ACC_ERR, RING_ERR (R498, R503). Reset 0. -/
  clamped : Bool := false
  accErr : Bool := false
  ringErr : Bool := false
  /-- DRAM_FAIL with channel and lane (R387). Reset none. -/
  dramFail : Option (Nat × Nat) := none
deriving DecidableEq, Repr

/-- Set-up registers that hold nothing but what was written (R497 to R518). -/
structure RegState where
  /-- Plain RW registers and the low halves of split fields by BAR0 offset, as last written (R499). Reset empty: a register
  not listed reads as its Reset column. -/
  plain : SMap (BitVec 32) := []
  /-- DBG_STAT: BUSY and the last response (R516). Reset 0. -/
  dbgBusy : Bool := false
  dbgResp : Nat := 0
  /-- DBG_ADDR in effect, 64 bits (R499, R516). Reset 0. -/
  dbgAddr : BitVec 64 := 0
deriving DecidableEq, Repr

/-- The whole device but for its frame numbers.
(log 3: DESIGN CHOICE, unsafe; log 5: DESIGN CHOICE, safe; log 28: DESIGN CHOICE, safe.) -/
structure Device where
  img : ImgState := {}
  cmd : CmdState := {}
  evt : EvtState := {}
  ring : RingEngine := {}
  geo : GeoState := {}
  xp : XpState := {}
  inp : InState := {}
  chn : ChainState := {}
  psc : PscState := {}
  jrn : JournalState := {}
  pair : PairState := {}
  disp : DispState := {}
  /-- Render cores 0 to 63 (R320). -/
  cores : SMap CoreState := []
  /-- Custom instruction words, key 65,536 x cluster + address, 0x8000 to 0xFFFF (R321). Reset zero. The built-in half is
  `Config.builtinCode`. -/
  imem : SMap (BitVec 64) := []
  mem : MemState := {}
  xbar : XbarState := {}
  dram : DramState := {}
  eth : EthState := {}
  clk : ClkState := {}
  aes : AesState := {}
  pwr : PwrState := {}
  regs : RegState := {}
  /-- THE MODEL'S OWN: posted writes of the step that runs, flushed to host memory at its end (R252); empty
  between steps. Reset empty. -/
  outbox : List (Nat × List Byte) := []
  /-- THE MODEL'S OWN: count of free values drawn so far (`Config.freeF36`). DESIGN CHOICE: reset 0. -/
  free : Nat := 0
deriving DecidableEq, Repr

/-- The machine: frame numbers, the device, the host memory it shares with the host (R252), and the commands
that wait, first in first out. (log 3: DESIGN CHOICE, unsafe.) -/
structure State where
  fc : FrameClock := {}
  dev : Device := {}
  /-- Host memory by byte address, in canonical form: strictly rising, no zero byte listed (an unlisted byte reads
  0x00, DESIGN CHOICE). -/
  hostMem : List Host.Cell := []
  /-- Commands that wait, first in first out. -/
  pending : List Instr := []
deriving DecidableEq, Repr

/-- The machine right after the release of reset at power-up: every register at its Reset column (chapter 18),
every other field at the value its docstring names.
(log 2: DESIGN CHOICE, unsafe; log 3: DESIGN CHOICE, unsafe; log 4: DESIGN CHOICE, safe.)
(log 143: PRESUMED, unsafe.) -/
def State.reset : State := {}

end Sys2Proof.Machine
end

