-- ==== Sys2Proof/Machine/Ops.lean ====
section
/-! DEFINITION. Operations that every command shares: bytes, host memory and DMA, the environment of a step,
the event store (R269, R270), and the form in which a command acts on the device (`runDev`). -/
namespace Sys2Proof.Machine

/-! ## Bytes (R12: little-endian) -/

/-- The number that bytes spell, least significant first. -/
def leNat : List Byte → Nat
  | [] => 0
  | b :: r => b.toNat + 256 * leNat r

/-- `n` bytes of a number, least significant first. -/
def leBytes : Nat → Nat → List Byte
  | 0, _ => []
  | n + 1, v => BitVec.ofNat 8 v :: leBytes n (v / 256)

/-- The number that bytes spell, most significant first (network order). -/
def beNat (l : List Byte) : Nat := l.foldl (fun a b => a * 256 + b.toNat) 0

/-- `n` bytes of a number, most significant first. -/
def beBytes (n v : Nat) : List Byte := (leBytes n v).reverse

/-- `len` bytes at offset `off`, zero past the end. -/
def sub (l : List Byte) (off len : Nat) : List Byte :=
  (List.range len).map (fun i => l.getD (off + i) 0)

/-- Little-endian field of `len` bytes at `off`. -/
def fld (l : List Byte) (off len : Nat) : Nat := leNat (sub l off len)

/-- Big-endian field of `len` bytes at `off`. -/
def bfld (l : List Byte) (off len : Nat) : Nat := beNat (sub l off len)

/-- Signed little-endian field. -/
def sfld (l : List Byte) (off len : Nat) : Int := sext (8 * len) (fld l off len)

/-- Bytes all zero. -/
def allZero (l : List Byte) : Bool := l.all (· == 0)

/-- `len` zero bytes. -/
def zeros (len : Nat) : List Byte := List.replicate len 0

/-- An F36 value in an 8-byte field (R60), as the device writes it. -/
def f36Field (x : F36) : List Byte := leBytes 8 x.toNat

/-- Bit `i` of a number. -/
def bit (n i : Nat) : Bool := n.testBit i

/-- The number whose bits are a list, bit 0 first. -/
def ofBits : List Bool → Nat
  | [] => 0
  | b :: r => b.toNat + 2 * ofBits r

/-- `bytes` with the first places from `off` replaced by `new`. -/
def patch (l : List Byte) (off : Nat) (new : List Byte) : List Byte :=
  l.take off ++ new ++ l.drop (off + new.length)

/-! ## Frame numbers (R18) -/

/-- `a` is later than `b` (R18). -/
def later (a b : BitVec 32) : Bool := a ≠ b && decide ((a - b).toNat < 2147483648)

/-- `a` is earlier than `b` (R18). -/
def earlier (a b : BitVec 32) : Bool := a ≠ b && !later a b

/-- The later of two frame numbers. -/
def laterOf (a b : BitVec 32) : BitVec 32 := if later a b then a else b

/-! ## Host memory -/

/-- The byte at a host address (0 where nothing is listed, log 2). -/
def memByte (m : List Host.Cell) (a : Nat) : Byte := mget 0 m a

/-- `len` bytes from a host address. -/
def memRead (m : List Host.Cell) (a len : Nat) : List Byte :=
  (List.range len).map (fun i => memByte m (a + i))

/-- Bytes stored from an address. -/
def memWrite (m : List Host.Cell) (a : Nat) (l : List Byte) : List Host.Cell :=
  msets 0 m (l.zipIdx.map (fun p => (a + p.2, p.1)))

/-- Several writes in order. -/
def memWrites (m : List Host.Cell) (w : List (Nat × List Byte)) : List Host.Cell :=
  w.foldl (fun m p => memWrite m p.1 p.2) m

/-- The canonical form of host memory. (log 2: DESIGN CHOICE, unsafe.) -/
abbrev Memory.wf (m : List Host.Cell) : Bool := mwf (0 : Byte) m

/-! ## The environment of a step -/

/-- What a command reads beside the device: the frame numbers, the host memory after the host's stores, and the
ranges whose reads fail. -/
structure Env where
  fn : BitVec 32
  fnx : BitVec 64
  fnSync : Bool
  mem : List Host.Cell
  fails : List (Nat × Nat)
deriving DecidableEq, Repr

/-- A DMA read, `none` where it still fails after rung 1 (R262) or no DMA is issued (R252).
(log 10: DESIGN CHOICE, safe.) -/
def dmaRead (e : Env) (d : Device) (a len : Nat) : Option (List Byte) :=
  if !d.ring.busMaster || d.ring.d3hot then none
  else if e.fails.any (fun p => decide (p.1 < a + len) && decide (a < p.1 + p.2)) then none
  else some (memRead e.mem a len)

/-- A posted DMA write, dropped while the device issues no DMA (R252). -/
def post (a : Nat) (l : List Byte) (d : Device) : Device :=
  if !d.ring.busMaster || d.ring.d3hot then d else { d with outbox := d.outbox ++ [(a, l)] }

/-- The device accepts commands of its environment: it has power and is not held in reset (R472, R490). -/
def Device.alive (d : Device) : Bool := d.pwr.powered && !d.pwr.inReset

/-- A command's action on the device: the host's stores land first, the action runs, its posted writes land. FN_SYNC is
clear in the quiet state (R487). (log 10: DESIGN CHOICE, safe.) -/
def runDev (h : HostView) (f : Env → Device → Device) (s : State) : Host.Outcome State Fault Refusal :=
  let mem := msets 0 s.hostMem h.stores
  let d := f { fn := s.fc.fn, fnx := s.fc.fnx, fnSync := s.fc.fnSync, mem := mem, fails := h.fails } s.dev
  .next { s with fc := { s.fc with fnSync := s.fc.fnSync && !d.pwr.quiet }, dev := { d with outbox := [] },
                 hostMem := memWrites mem d.outbox }

/-- `runDev` for a command whose host view is empty and which a device in reset ignores.
(log 6: DESIGN CHOICE, safe; log 7: DESIGN CHOICE, safe.) -/
def act (f : Env → Device → Device) (s : State) : Host.Outcome State Fault Refusal :=
  runDev {} (fun e d => if d.alive then f e d else d) s

/-- `runDev` with a host view, ignored by a device in reset. -/
def actH (h : HostView) (f : Env → Device → Device) (s : State) : Host.Outcome State Fault Refusal :=
  runDev h (fun e d => if d.alive then f e d else d) s

/-- The host reaches the device: the SRAM has been cleared before the PCI Express endpoint accepts a request (R357, R476). -/
def Device.hostOpen (d : Device) : Bool := d.alive && d.pwr.sramClear

/-- `act` and `actH` for a command that the host gives through PCI Express. -/
def hostAct (f : Env → Device → Device) (s : State) : Host.Outcome State Fault Refusal :=
  runDev {} (fun e d => if d.hostOpen then f e d else d) s
def hostActH (h : HostView) (f : Env → Device → Device) (s : State) : Host.Outcome State Fault Refusal :=
  runDev h (fun e d => if d.hostOpen then f e d else d) s

/-! ## Time and configuration -/

/-- TIME_NS: the integer part of device time (R428). (log 9: DESIGN CHOICE, unsafe.) -/
def timeNs (d : Device) : BitVec 32 := BitVec.ofNat 32 (d.clk.time.toNat >>> 40)

/-- The image in force, or the format's defaults while there is none. (log 29: DESIGN CHOICE, unsafe.) -/
def cfg (d : Device) : Image := d.img.img.getD { dcfg := [(mget {} d.dram.ch 0).det, (mget {} d.dram.ch 1).det] }

def nObj (d : Device) : Nat := match d.img.img with | some i => i.nObj | none => 0
/-- Log 29: DESIGN CHOICE, unsafe. -/
def nOut (d : Device) : Nat := match d.img.img with | some i => i.nOut | none => 0

/-- Samples per frame (R4): 16 at 96 kHz, 8 at 48 kHz. -/
def nSmp (d : Device) : Nat := if (cfg d).fs96 then 16 else 8

/-- Sample rate in Hz. -/
def fsHz (d : Device) : Nat := if (cfg d).fs96 then 96000 else 48000

/-- Both hubs of a pair are configured (PAIR_ID 1 or 2, R222). -/
def paired (d : Device) : Bool := (cfg d).pairId ≠ 0

/-! ## Events (R269, R270) -/

/-- Add an event to the on-chip store: at most 256; when it is full, a FAULT or SAFETY event displaces the oldest
NOTE or WARN, any other new event is dropped, and each loss is counted. -/
def evtPush (ev : Event) (t : EvtState) : EvtState :=
  if t.store.length < 256 then { t with store := t.store ++ [ev] }
  else
    let t := { t with lost := inc32 t.lost, lostNow := inc32 t.lostNow }
    let minor : Event → Bool := fun x => decide (x.code / 0x1000 < 3)
    if ev.code / 0x1000 ≥ 3 && t.store.any minor then
      { t with store := t.store.eraseP minor ++ [ev] }
    else t

/-- Raise event `code` of function `func` with its DETAIL bytes (R269, R297). (log 39: DEDUCED, unsafe.) -/
def raise (code func : Nat) (detail : List Byte) (e : Env) (d : Device) : Device :=
  { d with evt := evtPush { code := code, func := BitVec.ofNat 8 func, fn := e.fn, timeNs := timeNs d,
                            detail := sub detail 0 6 } d.evt }

/-- Raise an event at most once in any 60 frames per key. (log 94: DEDUCED, unsafe.) -/
def raiseLim (key code func : Nat) (detail : List Byte) (e : Env) (d : Device) : Device :=
  let k := code * 65536 + key
  if mget 0 d.evt.wait k ≠ 0 then d
  else
    let d := raise code func detail e d
    { d with evt := { d.evt with wait := mset 0 d.evt.wait k 60 } }

/-- Apply an action for every element of a list. -/
def forAll (l : List α) (f : α → Device → Device) (d : Device) : Device := l.foldl (fun d a => f a d) d

/-- Apply an action where a condition holds. -/
def when (c : Bool) (f : Device → Device) (d : Device) : Device := if c then f d else d

/-! ## Access to the elements of the device -/

def objAt (d : Device) (o : Nat) : ObjState := mget {} d.geo.objs o
def setObj (o : Nat) (x : ObjState) (d : Device) : Device :=
  { d with geo := { d.geo with objs := mset {} d.geo.objs o x } }
def modObj (o : Nat) (f : ObjState → ObjState) (d : Device) : Device := setObj o (f (objAt d o)) d

def outAt (d : Device) (n : Nat) : OutState := mget {} d.chn.outs n
def setOut (n : Nat) (x : OutState) (d : Device) : Device :=
  { d with chn := { d.chn with outs := mset {} d.chn.outs n x } }
def modOut (n : Nat) (f : OutState → OutState) (d : Device) : Device := setOut n (f (outAt d n)) d

def xpAt (d : Device) (o n : Nat) : XPoint := mget {} d.xp.xps (512 * o + n)
def setXp (o n : Nat) (x : XPoint) (d : Device) : Device :=
  { d with xp := { d.xp with xps := mset {} d.xp.xps (512 * o + n) x } }

def decAt (d : Device) (i : Nat) : Dec := mget {} d.psc.dec i
def setDec (i : Nat) (x : Dec) (d : Device) : Device :=
  { d with psc := { d.psc with dec := mset {} d.psc.dec i x } }
def modDec (i : Nat) (f : Dec → Dec) (d : Device) : Device := setDec i (f (decAt d i)) d

def pchAt (d : Device) (i : Nat) : Pch := mget {} d.psc.pch i
def setPch (i : Nat) (x : Pch) (d : Device) : Device :=
  { d with psc := { d.psc with pch := mset {} d.psc.pch i x } }
def modPch (i : Nat) (f : Pch → Pch) (d : Device) : Device := setPch i (f (pchAt d i)) d

def railAt (d : Device) (g : Nat) : Rail := mget {} d.psc.rail g
def setRail (g : Nat) (x : Rail) (d : Device) : Device :=
  { d with psc := { d.psc with rail := mset {} d.psc.rail g x } }
def modRail (g : Nat) (f : Rail → Rail) (d : Device) : Device := setRail g (f (railAt d g)) d

def ringAt (d : Device) (r : Nat) : Ring := mget {} d.ring.rings r
def setRing (r : Nat) (x : Ring) (d : Device) : Device :=
  { d with ring := { d.ring with rings := mset {} d.ring.rings r x } }
def modRing (r : Nat) (f : Ring → Ring) (d : Device) : Device := setRing r (f (ringAt d r)) d

def slotAt (d : Device) (s : Nat) : RxSlot := mget {} d.inp.rx s
def chanAt (d : Device) (key : Nat) : RxChan := mget {} d.inp.chans key
def setChan (key : Nat) (x : RxChan) (d : Device) : Device :=
  { d with inp := { d.inp with chans := mset {} d.inp.chans key x } }
def rxCntAt (d : Device) (s : Nat) : RxCounters := mget {} d.inp.rxCnt s
def modRxCnt (s : Nat) (f : RxCounters → RxCounters) (d : Device) : Device :=
  { d with inp := { d.inp with rxCnt := mmod {} d.inp.rxCnt s f } }

def portAt (d : Device) (p : Nat) : Port := mget {} d.eth.ports p
def setPort (p : Nat) (x : Port) (d : Device) : Device :=
  { d with eth := { d.eth with ports := mset {} d.eth.ports p x } }
def modPort (p : Nat) (f : Port → Port) (d : Device) : Device := setPort p (f (portAt d p)) d

def ainAt (d : Device) (i : Nat) : AinPort := mget {} d.aes.ain i
def setAin (i : Nat) (x : AinPort) (d : Device) : Device :=
  { d with aes := { d.aes with ain := mset {} d.aes.ain i x } }
def modAin (i : Nat) (f : AinPort → AinPort) (d : Device) : Device := setAin i (f (ainAt d i)) d

def aoutAt (d : Device) (i : Nat) : AoutPort := mget {} d.aes.aout i
def setAout (i : Nat) (x : AoutPort) (d : Device) : Device :=
  { d with aes := { d.aes with aout := mset {} d.aes.aout i x } }
def modAout (i : Nat) (f : AoutPort → AoutPort) (d : Device) : Device := setAout i (f (aoutAt d i)) d

def ainMedAt (d : Device) (i : Nat) : AinMedia := mget {} d.inp.ain i
def modAinMed (i : Nat) (f : AinMedia → AinMedia) (d : Device) : Device :=
  { d with inp := { d.inp with ain := mmod {} d.inp.ain i f } }

def coreAt (d : Device) (c : Nat) : CoreState := mget {} d.cores c
def setCore (c : Nat) (x : CoreState) (d : Device) : Device := { d with cores := mset {} d.cores c x }
def modCore (c : Nat) (f : CoreState → CoreState) (d : Device) : Device := setCore c (f (coreAt d c)) d

def cslotAt (d : Device) (c : Nat) : CoreSlot := mget {} d.disp.cores c
def setCslot (c : Nat) (x : CoreSlot) (d : Device) : Device :=
  { d with disp := { d.disp with cores := mset {} d.disp.cores c x } }
def modCslot (c : Nat) (f : CoreSlot → CoreSlot) (d : Device) : Device := setCslot c (f (cslotAt d c)) d

def dchAt (d : Device) (c : Nat) : DramChan := mget {} d.dram.ch c
def modDch (c : Nat) (f : DramChan → DramChan) (d : Device) : Device :=
  { d with dram := { d.dram with ch := mmod {} d.dram.ch c f } }

/-- A set-up register that holds what was written, or its Reset column `v0`. -/
def regAt (d : Device) (off : Nat) (v0 : BitVec 32) : BitVec 32 :=
  match d.regs.plain.find? (fun p => p.1 == off) with | some p => p.2 | none => v0

/-- Draw a free value: an F36 value that the spec leaves open. -/
def drawCount (d : Device) : Nat × Device := (d.free, { d with free := d.free + 1 })

def between (lo hi v : Nat) : Bool := decide (lo ≤ v) && decide (v ≤ hi)

/-! ## Written words carry fresh code (R356) -/

/-- Words [a, a + len) of the shared store have been written whole. -/
def cleanStore (a len : Nat) (d : Device) : Device :=
  let hit := fun (w : Nat) => decide (a ≤ w) && decide (w < a + len)
  { d with mem := { d.mem with
    bad := d.mem.bad.filter (fun w => !hit w)
    wb := d.mem.wb.filter (fun p => match p with | .store w => !hit w | _ => true) } }

/-- Scratch words that are cleared to zero. -/
def clearScratch (hit : Nat → Bool) (c : CoreState) : CoreState :=
  { c with scratch := mdrop c.scratch hit, bad := c.bad.filter (fun w => !hit w), soft := c.soft.filter (fun w => !hit w) }

/-- Key of word `w` of a bay: sample words first, then the words of its 32 spare regions (R355). -/
def bayKey (b w : Nat) : Nat := if w < 524288 then 524288 * b + w else 8388608 + 2048 * b + (w - 524288)

/-- Key of the word that stands for bay word `k`: its own, or one of the spare region that its region is remapped to (R367). -/
def bayPhys (d : Device) (k : Nat) : Nat :=
  match mget 0 d.mem.remap (k / 64) with
  | 0 => k
  | s + 1 => 8388608 + 2048 * (k / 524288) + 64 * s + k % 64

/-- Bay words that have been written carry fresh code: keys as `bayPhys` gives them. -/
def cleanBay (ks : List Nat) (d : Device) : Device :=
  { d with
    xp := { d.xp with badWords := d.xp.badWords.filter (fun k => !ks.contains k) }
    mem := { d.mem with wb := d.mem.wb.filter (fun p => match p with | .bay b w => !ks.contains (bayKey b w) | _ => true) } }

end Sys2Proof.Machine
end

