-- ==== Sys2Proof/Machine/Real.lean ====
section
/-! DEFINITION. Real numbers for the held constants of R543: fixed point with 128 fraction bits, and the functions
whose values the manual asks for. A result is rounded to 2^-100 before its last rounding, so that exact values
(0, 1/2, 1) come out exact; no constant of the manual lies closer to a rounding tie than that. -/
namespace Sys2Proof.Machine

/-- Scale of the fixed-point reals. -/
def fxBits : Nat := 128

/-- A rational as a fixed-point real. -/
def fxRat (n : Int) (d : Nat) : Int := Int.fdiv (n * (pow2 fxBits : Nat)) d

def fxMul (x y : Int) : Int := Int.fdiv (x * y) (pow2 fxBits : Nat)

/-- Quotient, `y > 0`. -/
def fxDiv (x y : Int) : Int := Int.fdiv (x * (pow2 fxBits : Nat)) y

def fxOne : Int := (pow2 fxBits : Nat)

/-- Square root of a real that is not negative. -/
def fxSqrt (x : Int) : Int := (isqrt (x.toNat * pow2 fxBits) : Nat)

/-- The real rounded to 2^-100, as an exact dyadic number. -/
def fxDy (x : Int) : Dy :=
  ⟨ratRound x (pow2 (fxBits - 100)), -100⟩

/-- The F36 value nearest to a real (R543). (log 114: DEDUCED, unsafe.) -/
def fxF36 (x : Int) : F36 := ofDy (fxDy x)

/-- round_half_even of a real times 2^s (R543). (log 114: DEDUCED, unsafe.) -/
def fxRound (x : Int) (s : Nat) : Int :=
  let y := fxDy x
  dyRound ⟨y.m, y.e + s⟩

/-- 1/1 − 1/(3 k²) + … : arctan(1/k) of an integer, `fuel` terms. -/
def fxAtanInv (k : Nat) : Nat → Nat → Int → Int
  | 0, _, _ => 0
  | fuel + 1, n, t =>
    let a := Int.fdiv t (2 * n + 1 : Nat)
    (if n % 2 = 0 then a else -a) + fxAtanInv k fuel (n + 1) (Int.fdiv t (k * k : Nat))

/-- π by Machin's formula. -/
def fxPi : Int :=
  let w : Int := (pow2 (fxBits + 24) : Nat)
  let a := 16 * fxAtanInv 5 40 0 (Int.fdiv w 5) - 4 * fxAtanInv 239 14 0 (Int.fdiv w 239)
  Int.fdiv a (pow2 24 : Nat)

/-- Terms of a power series t, t·x/(n…), …: t_{j+1} = t_j · x / (a(j)), summed. -/
def fxSeries (x : Int) (a : Nat → Int) : Nat → Nat → Int → Int
  | 0, _, _ => 0
  | fuel + 1, j, t => t + fxSeries x a fuel (j + 1) (Int.fdiv (fxMul t x) (a j))

/-- cos x for |x| ≤ 8. -/
def fxCos (x : Int) : Int := fxSeries (fxMul x x) (fun j => -((2 * j + 1) * (2 * j + 2) : Nat)) 40 0 fxOne

/-- sin x for |x| ≤ 8. -/
def fxSin (x : Int) : Int := fxSeries (fxMul x x) (fun j => -((2 * j + 2) * (2 * j + 3) : Nat)) 40 0 x

/-- e^x for |x| ≤ 4. -/
def fxExp (x : Int) : Int := fxSeries x (fun j => ((j + 1 : Nat) : Int)) 60 0 fxOne

/-- I0 of a real given by a quarter of its square: Σ q^k / (k!)². -/
def fxI0 (q : Int) : Int := fxSeries q (fun j => ((j + 1) * (j + 1) : Nat)) 70 0 fxOne

/-- cos(π a / b). -/
def fxCosPi (a b : Nat) : Int := fxCos (fxMul fxPi (fxRat (a % (2 * b)) b))

/-- sin(π a / b). -/
def fxSinPi (a b : Nat) : Int := fxSin (fxMul fxPi (fxRat (a % (2 * b)) b))

/-- Kaiser window of shape β (β² = `n2`/`d2`) at the rational place `a`/`b` of [−1, 1], times I0(β). -/
def fxKaiser (n2 : Int) (d2 : Nat) (a : Int) (b : Nat) : Int :=
  let s := fxOne - fxMul (fxRat a b) (fxRat a b)
  fxI0 (Int.fdiv (fxMul (fxRat n2 d2) s) 4)

end Sys2Proof.Machine
end

