-- ==== Sys2Proof/Config.lean ====
section
/-! DEFINITION. Values that the spec leaves open, as opaque constants: nothing in Lean can evaluate them or prove
a value of them, so a statement about one holds whatever it is. -/
namespace Sys2Proof

/-- A fresh free value for each count drawn (`Device.free`): an F36 value that the spec does not determine.
(log 5: DESIGN CHOICE, safe; log 15: DESIGN CHOICE, safe.) -/
opaque Config.freeF36 : Nat → F36

/-- A free bit string, for each count drawn: bytes or words that the spec does not determine.
(log 5: DESIGN CHOICE, safe.) -/
opaque Config.freeNat : Nat → Nat

/-- The factory CRC of OTP fails (R475): OTP contents of the part. (log 20: DESIGN CHOICE, safe.) -/
opaque Config.otpFails : Bool

/-- Factory offset and gain of conversion channel n (R210, R474): OTP contents of the part.
(log 20: DESIGN CHOICE, safe.) -/
opaque Config.factoryOfs : Nat → F36
/-- Log 20: DESIGN CHOICE, safe. -/
opaque Config.factoryGain : Nat → F36

/-- Shared-store word at which the data of an operand stands (R339), by selector and frame parity.
(log 16: DESIGN CHOICE, safe.) -/
opaque Config.operandAddr : Nat → Nat

/-- The built-in code, instruction words 0x0000 to 0x7FFF (R321): the same in every device, not given.
(log 128: DESIGN CHOICE, safe.) -/
opaque Config.builtinCode : Nat → BitVec 64

/-- What an F36 place of a convolution slot holds, as an index into its values (R160): the layout is internal to the device.
(log 134: DESIGN CHOICE, safe.) -/
opaque Config.slotLayout : Nat → Nat

/-- Place of the re-run retention within the built-in areas of the shared store (R235, R363).
(log 135: DESIGN CHOICE, safe.) -/
opaque Config.retainPlace : Nat

/-- Place of the FIR staging area within the built-in areas of the shared store (R164, R363).
(log 120: DESIGN CHOICE, safe.) -/
opaque Config.firPlace : Nat

/-- Words of the built-in shared-store areas whose size the image's counts fix (R363), by objects and outputs.
(log 19: DESIGN CHOICE, safe.) -/
opaque Config.builtinWords : Nat → Nat → Nat

/-- Serial number and version words of the part (R474, R502): OTP contents. (log 21: DESIGN CHOICE, safe.) -/
opaque Config.serial : BitVec 64

/-- ECC syndrome of an entry of a DRAM error log, by channel and SEQ (R398, R514): the spec does not give the code.
(log 23: DESIGN CHOICE, safe.) -/
opaque Config.syndrome : Nat → Nat → Nat

/-- Payload of a RESYNC_DATA message after its stage and frame (R226, R237): the spec names what an item holds and its
size, not its layout. (log 26: DESIGN CHOICE, safe.) -/
opaque Config.resyncBytes : Machine.ResyncItem → List Byte

/-- VENDOR: the EUI-48 of the part's maker, first octet at [7:0] (R474, R502): OTP contents.
(log 21: DESIGN CHOICE, safe.) -/
opaque Config.vendor : BitVec 48

end Sys2Proof
end

