-- ==== Sys2Proof/Machine/Geometry.lean ====
section
/-! DEFINITION. The geometry engine (chapter 02): metadata records, the speed of sound, the rendering laws, target
delays and gains, flags. Every operation rounds once and stands in the order the manual writes it (R59). -/
namespace Sys2Proof.Machine

/-! ## Metadata records (R48 to R57) -/

/-- Gain limit +24 dB as the F36 value nearest to 15.849 (R9, R544). -/
def gainMax : F36 := f36Rat 15849 1000

/-- The law of a LAW byte (R49). -/
def lawOf : Nat → Option Law
  | 0 => some .off | 1 => some .dist | 2 => some .wfs | 3 => some .vbap | 4 => some .table | 5 => some .direct
  | _ => none

/-- The LAW byte of a law (R49). -/
def lawNum : Law → Nat
  | .off => 0 | .dist => 1 | .wfs => 2 | .vbap => 3 | .table => 4 | .direct => 5

/-- GAIN as held (R51): below zero reads 0, above 15.849 reads 15.849; and whether it was clamped. -/
def gainHeld (g : F36) : F36 × Bool :=
  if g.getLsbD 35 then (0, true)
  else if flt gainMax g then (gainMax, true)
  else (fcanon g, false)

/-- A record's STAMP and object index. -/
def recStamp (r : List Byte) : BitVec 32 := BitVec.ofNat 32 (fld r 0 4)
def recObj (r : List Byte) : Nat := fld r 4 2 % 1024

/-- The motion state that a record carries, and whether its gain was clamped; none where R51 drops it. A LAW that
differs from the held one sets JUMP when the record is sealed (`sealRec`). (log 138: DESIGN CHOICE, unsafe.) -/
def recMotion (nobj : Nat) (r : List Byte) : Option (Motion × Bool) :=
  if recObj r ≥ nobj then none
  else if fld r 0x18 8 ≥ pow2 36 then none
  else
    match lawOf (fld r 6 1) with
    | none => none
    | some l =>
      let g := gainHeld (BitVec.ofNat 36 (fld r 0x18 8))
      some ({ x := sfld r 8 3, y := sfld r 11 3, z := sfld r 14 3, size := fld r 17 3, gain := g.1, law := l,
              mute := bit (fld r 7 1) 0, jump := bit (fld r 7 1) 1 }, g.2)

/-- The record that carries a motion state (R48, R56). -/
def recBytes (stamp : BitVec 32) (o : Nat) (m : Motion) : List Byte :=
  leBytes 4 stamp.toNat ++ leBytes 2 o ++ leBytes 1 (lawNum m.law)
  ++ leBytes 1 (m.mute.toNat + 2 * m.jump.toNat)
  ++ leBytes 3 (uext 24 m.x) ++ leBytes 3 (uext 24 m.y) ++ leBytes 3 (uext 24 m.z) ++ leBytes 3 m.size
  ++ zeros 4 ++ f36Field m.gain

/-- A motion state taken in place of a held one: a change of LAW sets JUMP (R51, R82). -/
def takeMotion (held new : Motion) : Motion :=
  if new.law = held.law then new else { new with jump := true }

/-- A late record: at once where no hub carried it, else counted at the seal if its hub is selected (R57). -/
def markLate (hub : Nat) (x : ObjState) : ObjState :=
  if hub = 0 then { x with mdLate := true } else { x with lateBy := x.lateBy ++ [hub] }

/-- A refused record, the same. -/
def markBad (hub : Nat) (x : ObjState) : ObjState :=
  if hub = 0 then { x with mdBad := true } else { x with badBy := x.badBy ++ [hub] }

/-- A record or command ignored because it comes from another source (R52). -/
def ignoreRecord (o : Nat) (d : Device) : Device := modObj o (fun x => { x with ignored := inc32 x.ignored }) d

/-- Place a completed record in its object's pending slot (R24, R54): one record per stamp; a stamp earlier than
the latest sealed one is dropped and counted late; a stamp whose seal has passed is late. A record that carried another
source's stamp past a change of MD_SRC is ignored and counted (R52). -/
def pendRecord (e : Env) (o : Nat) (p : PendRec) (d : Device) : Device :=
  if (objAt d o).params.mdSrc ≠ p.src then ignoreRecord o d
  else
    modObj o (fun x =>
      let dropped := match x.sealed with | some s => earlier p.stamp s | none => false
      if dropped then markLate p.hub x
      else
        let x := if later p.stamp e.fn then x else markLate p.hub x
        { x with pend := x.pend.filter (fun q => q.stamp ≠ p.stamp || q.hub ≠ p.hub) ++ [p] }) d

/-- Count a record that R51 drops against its object (MD_BAD, R83); a record whose OBJ names no object has none.
(log 52: DEDUCED, unsafe.) -/
def badRecord (hub o : Nat) (d : Device) : Device := when (o < nObj d) (modObj o (markBad hub)) d

/-- The latest of the pending records whose stamp is not later than `t` (R54); of equal stamps there is one. -/
def latestRec (t : BitVec 32) (l : List PendRec) : Option PendRec :=
  l.foldl (fun a p => if later p.stamp t then a else
    match a with | none => some p | some q => if later p.stamp q.stamp then some p else a) none

/-- The metadata seal of one object at tick `t` (R54, R55): the latest pending record not later than `t`; the dropped
ones count as late and hand on their JUMP; without a record JUMP ends and the stale count runs. Records of a hub
that is not selected (`hub`) are discarded without being counted (R57). -/
def sealObj (t : BitVec 32) (hub : Nat) (fromCmd : Bool) (x : ObjState) : ObjState :=
  let x := { x with
    pend := x.pend.filter (fun q => later q.stamp t || q.hub = 0 || q.hub = hub)
    mdLate := x.mdLate || x.lateBy.contains hub, mdBad := x.mdBad || x.badBy.contains hub, lateBy := [], badBy := [] }
  match latestRec t (x.pend.filter (fun q => q.hub = 0 || q.hub = hub)) with
  | some p =>
    let gone := x.pend.filter (fun q => !later q.stamp t && q.stamp ≠ p.stamp)
    let jump := p.m.jump || gone.any (fun q => q.m.jump)
    { x with motion := takeMotion x.motion { p.m with jump := jump }, recClamp := x.recClamp || p.clamped,
             mdLate := x.mdLate || !gone.isEmpty, pend := x.pend.filter (fun q => later q.stamp t),
             sealed := some p.stamp, staleCount := 0, stale := false }
  | none =>
    if fromCmd then { x with staleCount := 0, stale := false }
    else { x with motion := { x.motion with jump := false }, staleCount := x.staleCount + 1 }

/-! ## Terms of a frame (R67, R68) -/

/-- A new T_SET (R67): step of the slew. -/
def setTemp (t : F36) (w : TempSlew) : TempSlew :=
  { w with tSet := t, delta := fdiv (fsub t w.tCur) (fint 6000), left := 6000 }

/-- The temperature at the start of an evaluation (R67). -/
def slewTemp (w : TempSlew) : TempSlew :=
  if w.left = 0 then w
  else if w.left = 1 then { w with tCur := w.tSet, left := 0 }
  else { w with tCur := fadd w.tCur w.delta, left := w.left - 1 }

/-- The temperature at the start of rendering and after a function reset (R67): T_CUR = T_SET, no slew. -/
def holdTemp (w : TempSlew) : TempSlew := { tSet := w.tSet, tCur := w.tSet }

/-- K, samples per millimetre (R68): FS_MM / (C0 + C1 × T_CUR). -/
def geoK (fs96 : Bool) (t : F36) : F36 :=
  fdiv (fint (if fs96 then 96 else 48)) (fadd (f36Rat 3313 10) (fmul (f36Rat 606 1000) t))

/-! ## Windows (R88, R89) -/

/-- Slots per bay, P. -/
def slotsP (nobj : Nat) : Nat := (nobj + 15) / 16
/-- Window length W in samples. -/
def winW (nobj : Nat) : Nat := if nobj = 0 then 0 else 3 * (524288 / slotsP nobj)
/-- Longest crosspoint delay in units of 1/512 sample, (W − 40) × 512. -/
def maxD (nobj : Nat) : Nat := (winW nobj - 40) * 512

/-! ## Vectors -/

/-- A vector of three F36 components. -/
structure V3 where
  x : F36
  y : F36
  z : F36
deriving DecidableEq, Repr

/-- (x·x + y·y) + z·z. -/
def v3sq (v : V3) : F36 := fadd (fadd (fmul v.x v.x) (fmul v.y v.y)) (fmul v.z v.z)

def v3len (v : V3) : F36 := fsqrt (v3sq v)

def v3div (v : V3) (s : F36) : V3 := ⟨fdiv v.x s, fdiv v.y s, fdiv v.z s⟩

/-- The direction of the object from the origin and its distance ro (R76). -/
def objDir (m : Motion) : V3 × F36 :=
  let p : V3 := ⟨fint m.x, fint m.y, fint m.z⟩
  let ro := v3len p
  if fzero ro then (⟨0, fOne, 0⟩, ro) else (v3div p ro, ro)

/-- The directions q0 to q4 that VBAP renders (R77). -/
def vbapDirs (m : Motion) (rMin : Nat) : List V3 :=
  let (p, ro) := objDir m
  if m.size = 0 then [p] else
  let a := fmin (fdiv (fint m.size) (fmax ro (fint rMin))) fOne
  let v : V3 := if flt (fabs p.z) (f36Rat 9 10) then ⟨p.y, fsub 0 p.x, 0⟩ else ⟨0, p.z, fsub 0 p.y⟩
  let u1 := v3div v (v3len v)
  let u2 : V3 := ⟨fsub (fmul p.y u1.z) (fmul p.z u1.y), fsub (fmul p.z u1.x) (fmul p.x u1.z),
                  fsub (fmul p.x u1.y) (fmul p.y u1.x)⟩
  let neg : V3 → V3 := fun u => ⟨fneg u.x, fneg u.y, fneg u.z⟩
  let q : V3 → V3 := fun u =>
    let w : V3 := ⟨fadd p.x (fmul a u.x), fadd p.y (fmul a u.y), fadd p.z (fmul a u.z)⟩
    v3div w (v3len w)
  [p, q u1, q (neg u1), q u2, q (neg u2)]

/-! ## VBAP (R78, R79) -/

/-- The three corner gains of a triangle for a direction (R78). -/
def triGains (t : Triangle) (q : V3) : List F36 :=
  [0, 1, 2].map (fun c =>
    fadd (fadd (fmul q.x (nth 0 t.inv c)) (fmul q.y (nth 0 t.inv (3 + c)))) (fmul q.z (nth 0 t.inv (6 + c))))

/-- All three gains at or above −E_VBAP = −2^−20. -/
def triWins (g : List F36) : Bool := g.all (fun x => fle (fneg (f36Rat 1 1048576)) x)

/-- The winning triangle of a direction: the remembered one first if still VALID, then table order (R78). -/
def triSearch (tri : SMap Triangle) (rem : Option Nat) (q : V3) : Option (Nat × List F36) :=
  let test : Nat × Triangle → Option (Nat × List F36) := fun p =>
    if p.2.valid then (let g := triGains p.2 q; if triWins g then some (p.1, g) else none) else none
  let first := match rem with
    | some r => test (r, mget {} tri r)
    | none => none
  match first with
  | some w => some w
  | none => (tri.filter (fun p => some p.1 ≠ rem)).findSome? test

/-- What VBAP computes once per object and frame: the sum S[n] per speaker, √P, the winners, VBAP_NONE. -/
structure Vbap where
  s : SMap F36
  norm : F36
  win : List (Option Nat)
  missed : Bool
deriving DecidableEq, Repr

/-- One direction's contribution (R78, R79). -/
def vbapDir (tri : SMap Triangle) (rem : Option Nat) (q : V3) (v : Vbap) : Vbap :=
  match triSearch tri rem q with
  | none => { v with win := v.win ++ [none], missed := true }
  | some (n, g) =>
    let g := g.map (fun x => if flt x 0 then 0 else x)
    let s := fsqrt (fadd (fadd (fmul (nth 0 g 0) (nth 0 g 0)) (fmul (nth 0 g 1) (nth 0 g 1)))
                         (fmul (nth 0 g 2) (nth 0 g 2)))
    if fzero s then { v with win := v.win ++ [some n], missed := true }
    else
      let t := mget {} tri n
      let put : SMap F36 → Nat × F36 → SMap F36 := fun m p => mset 0 m p.1 (fadd (mget 0 m p.1) (fdiv p.2 s))
      { v with win := v.win ++ [some n],
               s := [(t.a, nth 0 g 0), (t.b, nth 0 g 1), (t.c, nth 0 g 2)].foldl put v.s }

/-- VBAP of an object (R76 to R79). -/
def vbapObj (tri : SMap Triangle) (x : ObjState) : Vbap :=
  let dirs := vbapDirs x.motion x.params.rMin
  let v := dirs.zipIdx.foldl (fun v p => vbapDir tri (nth none x.vbapWin p.2) p.1 v)
    { s := [], norm := 0, win := [], missed := false }
  let power := v.s.foldl (fun a p => fadd a (fmul p.2 p.2)) 0
  { v with norm := fsqrt power, win := v.win ++ List.replicate (5 - v.win.length) none }

/-- The VBAP gain of speaker `n` (R79). -/
def vbapGain (v : Vbap) (n : Nat) : F36 := if fzero v.norm then 0 else fdiv (mget 0 v.s n) v.norm

/-! ## TABLE (R80) -/

/-- Grid position of a direction: i, j, fa, fb (R80). -/
def octaPos (p : V3) : Nat × Nat × F36 × F36 :=
  let s0 := fadd (fadd (fabs p.x) (fabs p.y)) (fabs p.z)
  let (p, s) := if fzero s0 then ((⟨0, fOne, 0⟩ : V3), fOne) else (p, s0)
  let uu := fdiv p.x s
  let ww := fdiv p.y s
  let sg : F36 → F36 := fun x => if flt x 0 then fneg fOne else fOne
  let (uu, ww) := if flt p.z 0 then
      (fmul (fsub fOne (fabs ww)) (sg uu), fmul (fsub fOne (fabs uu)) (sg ww)) else (uu, ww)
  let ga := fmul (fadd uu fOne) (f36Rat 63 2)
  let gb := fmul (fadd ww fOne) (f36Rat 63 2)
  let i := min (dyFloor (toDy ga)).toNat 62
  let j := min (dyFloor (toDy gb)).toNat 62
  (i, j, fsub ga (fint i), fsub gb (fint j))

/-- Bilinear value of the direction gain table in column `col` (R80). (log 53: DEDUCED, unsafe.) -/
def tableGain (tab : SMap F36) (pos : Nat × Nat × F36 × F36) (col : Nat) : F36 :=
  let (i, j, fa, fb) := pos
  let t : Nat → F36 := fun m => mget 0 tab (64 * m + col)
  let ia := fsub fOne fa
  let ib := fsub fOne fb
  fadd (fadd (fadd (fmul (fmul ia ib) (t (64 * j + i))) (fmul (fmul fa ib) (t (64 * j + i + 1))))
             (fmul (fmul ia fb) (t (64 * (j + 1) + i)))) (fmul (fmul fa fb) (t (64 * (j + 1) + i + 1)))

/-! ## One crosspoint (R69 to R81) -/

/-- What the evaluation of a crosspoint gives: target delay and gain, and the conditions of R71 and R72. -/
structure Target where
  dT : Nat
  gT : F36
  low : Bool := false
  high : Bool := false
  clamp : Bool := false
deriving DecidableEq, Repr

/-- Target delay of an F36 delay (R71). -/
def delayOf (nobj bulk : Nat) (dly : F36) : Nat × Bool × Bool :=
  let dq := fsub dly (fint bulk)
  let n := dyRound ⟨(toDy dq).m, (toDy dq).e + 9⟩
  if flt dq 0 then (0, true, false)
  else if n > maxD nobj then (maxD nobj, false, true)
  else (n.toNat, false, false)

/-- Whether a speaker admits an object (R69, without MUTE and OFF). -/
def lawsBit (s : Speaker) (l : Law) : Bool :=
  match l with
  | .off => false
  | .dist => s.laws.getLsbD 0
  | .wfs => s.laws.getLsbD 1
  | .vbap => s.laws.getLsbD 2
  | .table => s.laws.getLsbD 3
  | .direct => s.laws.getLsbD 4

/-- The crosspoint is active (R69). -/
def xpActive (s : Speaker) (x : ObjState) : Bool :=
  s.laws.getLsbD 7 && lawsBit s x.motion.law && (s.zoneMask &&& x.params.zoneMask) ≠ 0 && !x.motion.mute

/-- dx, dy, dz, r and r_eff (R70). -/
def distTerms (s : Speaker) (x : ObjState) : V3 × F36 × F36 :=
  let v : V3 := ⟨fint (s.x - x.motion.x), fint (s.y - x.motion.y), fint (s.z - x.motion.z)⟩
  let r := v3len v
  (v, r, fmax (fmax r (fint x.params.rMin)) (fint x.motion.size))

/-- Law gain and delay of DIST (R73). -/
def distLaw (k : F36) (s : Speaker) (x : ObjState) : F36 × F36 :=
  let (_, r, re) := distTerms s x
  (fdiv (fint x.params.rRef) re, fadd (fmul r k) s.dlyTrim)

/-- Law gain and delay of WFS (R74). -/
def wfsLaw (lo hi k : F36) (s : Speaker) (x : ObjState) : F36 × F36 :=
  let (v, r, re) := distTerms s x
  let cphi := fdiv (fadd (fadd (fmul s.nx v.x) (fmul s.ny v.y)) (fmul s.nz v.z)) re
  let u := fmin (fmax (fdiv (fsub cphi lo) (fsub hi lo)) 0) fOne
  let w := fmul (fmul u u) (fsub (fint 3) (fmul (fint 2) u))
  let g := if fzero u then 0 else fmul (fmul (fsqrt (fdiv (fint x.params.wfsDref) re)) cphi) w
  (g, fadd (fmul r k) s.dlyTrim)

/-- Delay of VBAP and TABLE (R76, R80). -/
def panDelay (k ro : F36) (s : Speaker) (x : ObjState) : F36 :=
  if x.params.dlyMode then fadd (fmul ro k) s.dlyTrim else s.dlyTrim

/-- G and the GAIN_CLAMP condition (R72). -/
def gainOf (act : Bool) (gain g : F36) (trim : Option F36) : F36 × Bool :=
  if !act then (0, false) else
  let a := fmul gain g
  let b := match trim with | some t => fmul a t | none => a
  if flt gainMax b then (gainMax, true) else (b, false)

/-- What one evaluation holds for all crosspoints of an object. -/
structure GeoEnv where
  nobj : Nat
  k : F36
  lo : F36
  hi : F36
  vb : Vbap
  pos : Nat × Nat × F36 × F36
  ro : F36
deriving DecidableEq, Repr

/-- The target of crosspoint (object, output `n`); `prevD` is its previous target delay (R69: kept under OFF). -/
def target (ge : GeoEnv) (tab : SMap F36) (direct : F36 × Nat) (s : Speaker) (x : ObjState) (n prevD : Nat) :
    Target :=
  let act := xpActive s x
  let gain := x.motion.gain
  let mk : F36 × F36 → Target := fun gd =>
    let (dT, low, high) := delayOf ge.nobj x.params.objBulk gd.2
    let (g, cl) := gainOf act gain gd.1 (some s.gainTrim)
    { dT := dT, gT := g, low := low && act, high := high && act, clamp := cl }
  match x.motion.law with
  | .off => { dT := prevD, gT := 0 }
  | .dist => mk (distLaw ge.k s x)
  | .wfs => mk (wfsLaw ge.lo ge.hi ge.k s x)
  | .vbap => mk (vbapGain ge.vb n, panDelay ge.k ge.ro s x)
  | .table => mk (if s.tabCol = 0xFF then 0 else tableGain tab ge.pos s.tabCol.toNat, panDelay ge.k ge.ro s x)
  | .direct =>
    let hi := decide (direct.2 > maxD ge.nobj)
    let (g, cl) := gainOf act gain direct.1 none
    { dT := if hi then maxD ge.nobj else direct.2, gT := g, high := hi && act, clamp := cl }

/-- The terms of an object's evaluation. -/
def geoEnvOf (d : Device) (x : ObjState) : GeoEnv :=
  let dir := objDir x.motion
  { nobj := nObj d, k := geoK (cfg d).fs96 d.geo.temp.tCur, lo := d.geo.wfsLo, hi := d.geo.wfsHi,
    vb := if x.motion.law = .vbap then vbapObj d.geo.tri x
          else { s := [], norm := 0, win := List.replicate 5 none, missed := false },
    pos := octaPos dir.1, ro := dir.2 }

/-- The targets of all crosspoints of an object, output by output (R69 to R82). -/
def objTargets (d : Device) (odd : Bool) (o : Nat) : List Target :=
  let x := objAt d o
  let ge := geoEnvOf d x
  (List.range (nOut d)).map (fun n =>
    let xp := xpAt d o n
    target ge d.geo.dirtab (mget (0, 0) d.geo.direct (512 * o + n)) (mget {} d.geo.spk n) x n
      (if odd then xp.d0 else xp.d1))

/-- A crosspoint with the target of frame k written to bank (k mod 2) (R98). -/
def putTarget (odd jump : Bool) (t : Target) (xp : XPoint) : XPoint :=
  if odd then { xp with d1 := t.dT, g1 := t.gT, j1 := jump } else { xp with d0 := t.dT, g0 := t.gT, j0 := jump }

/-! ## Flags (R83, R84) -/

/-- The first output of a condition, 0xFFFF for none. -/
def firstOf (p : Target → Bool) (l : List Target) : Nat :=
  let i := l.findIdx p
  if i < l.length then i else 0xFFFF

/-- The flag word of an object's evaluation (R83), object-level flags included. -/
def geoFlagWord (x : ObjState) (l : List Target) (missed : Bool) : BitVec 7 :=
  BitVec.ofNat 7 (ofBits [l.any (·.low), l.any (·.high), l.any (·.clamp) || x.recClamp, missed, x.mdLate, x.stale,
    x.mdBad])

/-- Close an object's flag word for a frame: keep the previous word, count, and clear what arises anew (R83, R84). -/
def closeFlags (w : BitVec 7) (l : List Target) (x : ObjState) : ObjState :=
  { x with geoFlags := w, geoPrev := x.geoFlags, firstLow := firstOf (·.low) l, firstHigh := firstOf (·.high) l,
           firstClamp := firstOf (·.clamp) l, recClamp := false, mdLate := false, mdBad := false }

/-- The GEO_FLAG event of an object (R84): on a rise, at most one per object in 60 frames. -/
def geoFlagEvent (o : Nat) (e : Env) (d : Device) : Device :=
  let x := objAt d o
  let risen := x.geoFlags &&& ~~~x.geoPrev
  if risen = 0 || x.geoWait ≠ 0 then d else
  let f : Nat → Nat → Nat := fun i n => if risen.getLsbD i then n else 0xFFFF
  let first := min (f 0 x.firstLow) (min (f 1 x.firstHigh) (f 2 x.firstClamp))
  modObj o (fun x => { x with geoWait := 60 })
    (raise 0x2001 0x70 (leBytes 2 o ++ leBytes 1 risen.toNat ++ [0] ++ leBytes 2 first) e d)

/-- Count the flags of an object (R84). -/
def countFlags (w : BitVec 7) (c : SMap Nat) : SMap Nat :=
  foldN 7 (fun c i => if w.getLsbD i then mmod 0 c i inc32 else c) c

/-- The targets of the previous frame carried into a frame's bank, with J clear (R99). -/
def carryTarget (odd : Bool) (xp : XPoint) : XPoint :=
  if odd then { xp with d1 := xp.d0, g1 := xp.g0, j1 := false } else { xp with d0 := xp.d1, g0 := xp.g1, j0 := false }

/-- The evaluation of one object for a frame whose bank is `odd`, as far as it came (R86, R99): a crosspoint that was reached
has its new target, any other keeps its last one with J clear; winners and flags are those of the crosspoints reached. -/
def evalReached (odd : Bool) (reached : Nat → Bool) (o : Nat) (e : Env) (d : Device) : Device :=
  let x := objAt d o
  let all := objTargets d odd o
  let l := all.zipIdx.map (fun p => if reached p.2 then p.1 else { p.1 with low := false, high := false, clamp := false })
  let any := all.isEmpty || (List.range all.length).any reached
  let ge := geoEnvOf d x
  let w := geoFlagWord x l (any && ge.vb.missed)
  let d := forAll all.zipIdx (fun p d =>
    let xp := xpAt d o p.2
    setXp o p.2 (if reached p.2 then putTarget odd x.motion.jump p.1 xp else carryTarget odd xp) d) d
  let d := modObj o (fun x => { closeFlags w l x with vbapWin := if any then ge.vb.win else x.vbapWin }) d
  let d := { d with geo := { d.geo with flagCnt := countFlags w d.geo.flagCnt } }
  geoFlagEvent o e d

/-- The whole evaluation of one object for frame `e.fn` (R86): targets into bank (FN mod 2), winners, flags. -/
def evalObj (o : Nat) (e : Env) (d : Device) : Device := evalReached (e.fn.getLsbD 0) (fun _ => true) o e d

/-- GEO finishes the evaluation of the running frame (R86), unless a hardware fault has ended it (R378).
(log 37: DEDUCED, unsafe.) -/
def geoFinish (e : Env) (d : Device) : Device :=
  if !d.geo.running || d.geo.failed then d else
  let d := forAll (List.range (nObj d)) (fun o d => evalObj o e d) d
  { d with geo := { d.geo with running := false } }

/-- GEO abandons the rest of frame `k` at the next tick (R86, R99): which crosspoints it had reached by then is a free value,
one bit each; those keep the frame's targets, the others carry their last ones. (log 37: DEDUCED, unsafe.) -/
def geoAbandon (k : BitVec 32) (e : Env) (d : Device) : Device :=
  if !d.geo.running then d else
  let (c, d) := drawCount d
  let d := { d with geo := { d.geo with running := false, failed := false, overruns := inc32 d.geo.overruns } }
  let d := forAll (List.range (nObj d)) (fun o d =>
    evalReached (k.getLsbD 0) (fun n => (Config.freeNat c).testBit (nOut d * o + n)) o e d) d
  raise 0x3002 0x70 [] e d

/-- The canonical record's motion state of every configured object for the frame that starts (R56, hub role). -/
def formCanon (d : Device) : Device :=
  forAll (List.range (nObj d)) (fun o d => modObj o (fun x => { x with canon := x.motion }) d) d

/-- MD_STALE (R55): a RING or STREAM object whose count has reached STALE_FRAMES (0 disables the flag). -/
def mdStaleObj (o : Nat) (d : Device) : Device :=
  modObj o (fun x =>
    if x.params.mdSrc ≠ .command && x.params.staleFrames ≠ 0 && x.staleCount ≥ x.params.staleFrames
    then { x with stale := true } else x) d

/-- GEO_EVAL_DONE: completion of the geometry evaluation (R86). -/
def execGeoEvalDone (s : State) : Host.Outcome State Fault Refusal := act geoFinish s

/-- MD_STALE: flagging of an object with no sealed record for STALE_FRAMES frames (R55). -/
def execMdStale (obj : Nat) (s : State) : Host.Outcome State Fault Refusal :=
  act (fun _ d => when (obj < nObj d) (mdStaleObj obj) d) s

end Sys2Proof.Machine
end

