-- ==== Sys2Proof/Machine/Xpe.lean ====
section
/-! DEFINITION. The crosspoint engine and the delay store (chapter 03): windows, the interpolation kernel, ramps,
fades, scarfs and their grants, partial sums and the reduction tree. -/
namespace Sys2Proof.Machine

/-! ## Crossfade weights (R41, R42, R107) -/

/-- w_in(i) = 0.5 × (1 − cos(π (i + 1) / N)) as held (R42, R543). -/
def wIn (n i : Nat) : F36 := fxF36 (Int.fdiv (fxOne - fxCosPi (i + 1) n) 2)

/-- w_out(i) = 0.5 × (1 + cos(π (i + 1) / N)) as held (R41, R543). -/
def wOut (n i : Nat) : F36 := fxF36 (Int.fdiv (fxOne + fxCosPi (i + 1) n) 2)

/-- A frame multiplied by w_in or w_out, sample by sample. -/
def fadeInFrame (n : Nat) (l : List F36) : List F36 := l.zipIdx.map (fun p => fmul p.1 (wIn n p.2))
def fadeOutFrame (n : Nat) (l : List F36) : List F36 := l.zipIdx.map (fun p => fmul p.1 (wOut n p.2))

/-- A scarf from one frame to another: old × w_out + new × w_in. -/
def scarfFrame (n : Nat) (old new : List F36) : List F36 :=
  (List.range n).map (fun i => fadd (fmul (nth 0 old i) (wOut n i)) (fmul (nth 0 new i) (wIn n i)))

/-- A frame of silence. -/
def silence (n : Nat) : List F36 := List.replicate n 0

/-! ## The interpolation kernel (R102) -/

/-- The normalised taps hn of a phase from m = −3 to 4: the factor sin(π τ) / π common to all taps cancels, and
phase 0 is the unit tap at m = 0. (log 114: DEDUCED, unsafe.) -/
def kernelReal (phi : Nat) : List Int :=
  if phi = 0 then [0, 0, 0, fxOne, 0, 0, 0, 0] else
  let a := (List.range 8).map (fun (j : Nat) =>
    let m : Int := (j : Int) - 3
    let t : Int := (phi : Int) - 512 * m
    let w := fxKaiser 7396 100 t 2048
    let v := if t > 0 then Int.fdiv (w * 512) t else -(Int.fdiv (w * 512) (-t))
    if m % 2 = 0 then v else -v)
  let s := a.foldl (· + ·) 0
  a.map (fun v => if v ≥ 0 then fxDiv v s else -(fxDiv (-v) s))

/-- The place of the tap with the largest magnitude, the lower on a tie. -/
def largestTap (l : List Int) : Nat :=
  (l.zipIdx.foldl (fun b p => if p.1.natAbs > b.1 then (p.1.natAbs, p.2) else b) ((0, 0) : Nat × Nat)).2

/-- c(phi, m) for m = −3 to 4 (R102): every phase sums to exactly 1. -/
def kernelRow (phi : Nat) : List F36 :=
  let hn := kernelReal phi
  let k := hn.map (fun x => fxRound x 26)
  let e : Int := pow2 26 - k.foldl (· + ·) 0
  let j := largestTap (hn.map (fun x => (fxDy x).m))
  k.zipIdx.map (fun p => ofDy ⟨if p.2 = j then p.1 + e else p.1, -26⟩)

/-! ## The window (R87 to R92) -/

def bayOf (o : Nat) : Nat := o % 16
def slotOf (o : Nat) : Nat := o / 16

/-- The bay word of window slot `j` of object `o`, as a key of `XpState.words`. -/
def winWord (nobj o j : Nat) : Nat := 524288 * bayOf o + slotOf o * (winW nobj / 3) + j / 3

/-- The window slot of label `l`: (B + L) mod W (R90). -/
def winSlot (w b : Nat) (l : Int) : Nat := ((b + l) % (w : Int)).toNat

/-- Lane `j mod 3` of a word as a PCM code. -/
def laneGet (w : Word72) (j : Nat) : Int := sext 24 (w.toNat / pow2 (24 * (j % 3)))

/-- A word with lane `j mod 3` replaced. -/
def laneSet (w : Word72) (j : Nat) (v : Int) : Word72 :=
  let s := 24 * (j % 3)
  let old := (w.toNat / pow2 s) % pow2 24
  BitVec.ofNat 72 (w.toNat - old * pow2 s + uext 24 v * pow2 s)

/-- A label holds audio (R92): within the history, and not in an unfilled gap (R95, R96). -/
def hasAudio (n : Nat) (x : ObjState) (l : Int) : Bool :=
  decide (-(x.winHD : Int) ≤ l) && decide (l < n) &&
  (match x.gap with
   | some g => !(decide (-(g.oldest : Int) ≤ l) && decide (l < -(g.oldest : Int) + g.left))
   | none => true)

/-- One tap: its F36 value, whether it misses audio (WIN_MISS), its word where that is uncorrectable (BAY_ECC). -/
structure Tap where
  v : F36
  miss : Bool := false
  bad : Option Nat := none
deriving DecidableEq, Repr

def readTap (d : Device) (o : Nat) (x : ObjState) (l : Int) : Tap :=
  let w := winW (nObj d)
  if !hasAudio (nSmp d) x l then { v := 0, miss := true } else
  let j := winSlot w x.winB l
  let k := winWord (nObj d) o j
  let q := bayPhys d k
  if d.xp.badWords.contains q then { v := 0, bad := some k }
  else { v := ofPcm (laneGet (mget 0 d.xp.words q) j) }

/-- Store the PCM samples of a frame at labels `from`, `from` + 1, … of a window (R90); a rewritten word has fresh
code (R113). -/
def winWrite (o b : Nat) (from_ : Int) (pcm : List Int) (d : Device) : Device :=
  let w := winW (nObj d)
  let ws := pcm.zipIdx.foldl (fun ws p =>
    let j := winSlot w b (from_ + p.2)
    let k := bayPhys d (winWord (nObj d) o j)
    mset 0 ws k (laneSet (mget 0 ws k) j p.1)) d.xp.words
  let ks := pcm.zipIdx.map (fun p => bayPhys d (winWord (nObj d) o (winSlot w b (from_ + p.2))))
  cleanBay ks { d with xp := { d.xp with words := ws } }

/-- A list of words with one more that it may already hold. -/
def addBad (l : List Nat) : Option Nat → List Nat
  | some k => if l.contains k then l else l ++ [k]
  | none => l

/-- Words of two lists, each once. -/
def joinBad (l m : List Nat) : List Nat := m.foldl (fun a k => addBad a (some k)) l

/-- A reading at delay `dl` for sample `i` (R101), with its WIN_MISS condition and the uncorrectable words it met. -/
def reading (tap : Int → Tap) (dl : Int) (i : Nat) : F36 × Bool × List Nat :=
  let q : Int := 512 * (i : Int) - 1792 - dl
  let n := Int.fdiv q 512
  let c := kernelRow (q - 512 * n).toNat
  (List.range 8).foldl (fun a (j : Nat) =>
    let t := tap (n + (j : Int) - 3)
    (fadd a.1 (fmul t.v (nth 0 c j)), a.2.1 || t.miss, addBad a.2.2 t.bad)) (0, false, [])

/-! ## Kinds, gains and contributions (R103 to R109) -/

/-- What the engine sees of a crosspoint in a frame. -/
structure XpIn where
  dc : Nat
  gc : F36
  dt : Nat
  gt : F36
  j : Bool
  /-- The frame is a ramp-in frame (R104). -/
  ramp : Bool
deriving DecidableEq, Repr

/-- A jump of delay: J or |ΔD| above the slew limit of 1,024 units, ΔD ≠ 0 (R103, R105). -/
def XpIn.leaps (a : XpIn) : Bool :=
  (a.j || decide (((a.dt : Int) - a.dc).natAbs > 1024)) && a.dt ≠ a.dc

/-- Kind before the grants (R105): 2 stands for a crosspoint that meets the SCARF condition. -/
def xpKind (a : XpIn) : Nat :=
  if fzero a.gc && fzero a.gt then 0
  else if a.leaps && (fzero a.gc != fzero a.gt) then 1
  else if a.leaps && !fzero a.gc && !fzero a.gt then 2
  else 4

/-- The raised-cosine law applies (R105). -/
def xpCosine (slew : F36) (a : XpIn) : Bool :=
  a.j || (!a.ramp && flt slew (fabs (fsub a.gt a.gc)))

/-- g(i) (R107). -/
def xpGain (n : Nat) (cosine : Bool) (gc gt : F36) (i : Nat) : F36 :=
  if feq gt gc then fcanon gc
  else if i + 1 = n then fcanon gt
  else if cosine then fadd (fmul gc (wOut n i)) (fmul gt (wIn n i))
  else fadd gc (fmul (fsub gt gc) (f36Rat (i + 1) n))

/-- What a crosspoint adds to the partial sum, in order (one frame per product of R108, R109), the state it leaves,
and the flag conditions of its readings: uncorrectable words, or an uncorrectable control entry (R113). -/
structure XpOut where
  adds : List (List F36) := []
  xp : XPoint
  miss : Bool := false
  bad : List Nat := []
  entry : Bool := false
  hold : Bool := false
deriving DecidableEq, Repr

/-- Render one crosspoint (R105 to R109); `granted` is the grant of R110 to its object. -/
def renderXp (n : Nat) (slew : F36) (tap : Int → Tap) (granted : Bool) (a : XpIn) (xp : XPoint) : XpOut :=
  let done : Nat → XPoint := fun k => { xp with dCur := a.dt, gCur := a.gt, kind := k, dLast := a.dt, gLast := a.gt }
  let fold : (Nat → Int) → (Nat → F36) → List F36 × Bool × List Nat := fun dl g =>
    (List.range n).foldl (fun acc i =>
      let r := reading tap (dl i) i
      (acc.1 ++ [fmul r.1 (g i)], acc.2.1 || r.2.1, joinBad acc.2.2 r.2.2)) ([], false, [])
  match xpKind a with
  | 0 => { xp := { done 0 with gCur := a.gc } }
  | 1 =>
    let r := fold (fun _ => if fzero a.gc then a.dt else a.dc) (xpGain n (xpCosine slew a) a.gc a.gt)
    { adds := [r.1], xp := done 1, miss := r.2.1, bad := r.2.2 }
  | 2 =>
    if granted then
      let r := fold (fun _ => a.dc) (fun i => fmul a.gc (wOut n i))
      let q := fold (fun _ => a.dt) (fun i => fmul a.gt (wIn n i))
      { adds := [r.1, q.1], xp := done 2, miss := r.2.1 || q.2.1, bad := joinBad r.2.2 q.2.2 }
    else
      let r := fold (fun _ => a.dc) (fun _ => a.gc)
      { adds := [r.1], xp := { xp with dCur := a.dc, kind := 3, dLast := a.dt, gLast := a.gt },
        miss := r.2.1, bad := r.2.2, hold := true }
  | _ =>
    let r := fold (fun i => (a.dc : Int) + Int.fdiv (((a.dt : Int) - a.dc) * ((i : Int) + 1)) n)
      (xpGain n (xpCosine slew a) a.gc a.gt)
    { adds := [r.1], xp := done 4, miss := r.2.1, bad := r.2.2 }

/-! ## Grants (R110) -/

/-- Grants of a bay: objects with their PENDING bits and counts of SCARF crosspoints, in slot order; answers the
objects granted. -/
def grants (allow : Nat) (l : List (Nat × Bool × Nat)) : List Nat :=
  let order := l.filter (fun p => p.2.1) ++ l.filter (fun p => !p.2.1)
  (order.foldl (fun (a : List Nat × Nat × Bool) p =>
    let (g, left, first) := a
    let c := p.2.2
    if c = 0 then a
    else if c ≤ left then (p.1 :: g, left - c, false)
    else if first then (p.1 :: g, 0, false)
    else (g, left, false)) (([], allow, true) : List Nat × Nat × Bool)).1

/-! ## A bay's frame (R104, R110, R111, R113) -/

/-- The ramp-in index j of input frame `k`, if it is a ramp-in frame (R104). -/
def rampIdx (d : Device) (k : BitVec 32) : Option Nat :=
  match d.xp.rampFrom with
  | some s => if (k - s).toNat < 16 then some (k - s).toNat else none
  | none => none

/-- Whether the object's control entry is uncorrectable (R113). -/
def entryOf (d : Device) (o n : Nat) : Nat := 32768 * bayOf o + slotOf o * nOut d + n

/-- The input of a crosspoint in input frame `k`. -/
def xpIn (d : Device) (k : BitVec 32) (x : ObjState) (xp : XPoint) : XpIn :=
  let odd := k.getLsbD 0
  let dt := if odd then xp.d1 else xp.d0
  let gt := if odd then xp.g1 else xp.g0
  let j := if odd then xp.j1 else xp.j0
  match rampIdx d k with
  | some 0 => { dc := dt, gc := 0, dt := dt, gt := fmul gt (f36Rat 1 16), j := false, ramp := true }
  | some r => { dc := xp.dCur, gc := xp.gCur, dt := dt, gt := fmul gt (f36Rat (r + 1) 16), j := j || x.pendJump,
                ramp := true }
  | none => { dc := xp.dCur, gc := xp.gCur, dt := dt, gt := gt, j := j || x.pendJump, ramp := false }

/-- Objects of a bay in slot order. -/
def bayObjs (d : Device) (b : Nat) : List Nat := (List.range (nObj d)).filter (fun o => bayOf o = b)

/-- SCARF crosspoints of an object in input frame `k`; a crosspoint with a bad entry is IDLE (R113). -/
def scarfCount (d : Device) (k : BitVec 32) (o : Nat) : Nat :=
  let x := objAt d o
  ((List.range (nOut d)).filter (fun n =>
    !d.xp.badEntries.contains (entryOf d o n) && xpKind (xpIn d k x (xpAt d o n)) = 2)).length

/-- Render one crosspoint of the frame, with the rule of R113 for a bad control entry. -/
def renderOne (d : Device) (k : BitVec 32) (granted : Bool) (o : Nat) (x : ObjState) (n : Nat) : XpOut :=
  let xp := xpAt d o n
  let a := xpIn d k x xp
  if d.xp.badEntries.contains (entryOf d o n) then
    { xp := { xp with dCur := a.dt, gCur := 0, kind := 0, dLast := a.dt, gLast := a.gt }, entry := true }
  else renderXp (nSmp d) d.xp.live.gainSlew (readTap d o x) granted a xp

/-- Add a frame to a partial sum, sample by sample. -/
def addFrame (p q : List F36) : List F36 := p.zipWith fadd q

/-- Render one object into the partial sums of its bay: sums, results per output. -/
def renderObj (d : Device) (k : BitVec 32) (granted : Bool) (o : Nat) (sums : List (List F36)) :
    List (List F36) × List XpOut :=
  let x := objAt d o
  let outs := (List.range (nOut d)).map (renderOne d k granted o x)
  (sums.zipWith (fun p r => r.adds.foldl addFrame p) outs, outs)

/-- XPE_FLAG of an object (R118): flags that rose, at most once in any 60 frames. (log 38: DEDUCED, unsafe.) -/
def xpeFlagEvent (e : Env) (o : Nat) (d : Device) : Device :=
  let x := objAt d o
  let risen := x.xpeFlags &&& ~~~x.xpePrev
  if risen = 0 || x.xpeWait ≠ 0 then d
  else modObj o (fun x => { x with xpeWait := 60 }) (raise 0x2002 0x71 (leBytes 2 o ++ leBytes 1 risen.toNat) e d)

/-- The bay engine's frame for input frame `k` (R110 to R114). -/
def bayFrame (b : Nat) (k : BitVec 32) (e : Env) (d : Device) : Device :=
  let objs := bayObjs d b
  let counts := objs.map (fun o => (o, (objAt d o).pendJump && rampIdx d k ≠ some 0, scarfCount d k o))
  let gr := grants d.xp.live.scarfXp counts
  let zero := List.replicate (nOut d) (silence (nSmp d))
  let (sums, res) := objs.foldl (fun (a : List (List F36) × List (Nat × List XpOut)) o =>
    let r := renderObj d k (gr.contains o) o a.1
    (r.1, a.2 ++ [(o, r.2)])) ((zero, []) : List (List F36) × List (Nat × List XpOut))
  let bad := d.xp.badEntries.filter (fun en => en / 32768 = b)
  let d := forAll res (fun p d =>
    let o := p.1
    let d := forAll p.2.zipIdx (fun q d => setXp o q.2 q.1.xp d) d
    let hold := p.2.any (·.hold)
    let miss := p.2.any (·.miss)
    let word := p.2.any (fun r => !r.bad.isEmpty)
    let fl := BitVec.ofNat 4 (ofBits [false, miss, hold, word || p.2.any (·.entry)])
    let d := modObj o (fun x => { x with pendJump := hold, xpeFlags := x.xpeFlags ||| fl }) d
    when word (raise 0x3004 0x71 (leBytes 2 o ++ leBytes 1 b) e) d) d
  let d := forAll bad (fun en d =>
    raise 0x3005 0x71 (leBytes 1 b ++ [0] ++ leBytes 4 (en % 32768)) e d) d
  let d := forAll objs (xpeFlagEvent e) d
  let kinds := res.flatMap (fun p => p.2.map (fun r => r.xp.kind))
  { d with xp := { d.xp with
      partials := forAllMap d.xp.partials b sums,
      started := d.xp.started ++ [b],
      met := joinBad d.xp.met (res.flatMap (fun p => p.2.flatMap (·.bad))),
      badEntries := d.xp.badEntries.filter (fun en => en / 32768 ≠ b),
      scarfCnt := mset 0 d.xp.scarfCnt b (kinds.filter (· = 2)).length,
      holdCnt := mset 0 d.xp.holdCnt b (kinds.filter (· = 3)).length } }
where
  /-- The partial sums of a bay, output by output (key 512 × bay + output). -/
  forAllMap (m : SMap (List F36)) (b : Nat) (sums : List (List F36)) : SMap (List F36) :=
    sums.zipIdx.foldl (fun m p => mset [] m (512 * b + p.2) p.1) m

/-- Every object of the bay has been written for the running frame (R114). -/
def bayReady (d : Device) (b : Nat) : Bool := (bayObjs d b).all (fun o => (objAt d o).written)

/-- The reduction tree (R112): ((0+1)+(2+3)) … in the fixed order. -/
def reduceTree (p : List (List F36)) (n : Nat) : List F36 :=
  let z := silence n
  let g : Nat → List F36 := fun i => nth z p i
  let q : Nat → List F36 := fun i => addFrame (addFrame (g i) (g (i + 1))) (addFrame (g (i + 2)) (g (i + 3)))
  addFrame (addFrame (q 0) (q 4)) (addFrame (q 8) (q 12))

/-- The crosspoint sum of output `n` of input frame `k` (R112), faded in the frame of a function reset (R496). -/
def xsumOf (d : Device) (k : BitVec 32) (n : Nat) : List F36 :=
  let s := reduceTree ((List.range 16).map (fun b => mget (silence (nSmp d)) d.xp.partials (512 * b + n))) (nSmp d)
  if d.xp.resetAt = some k then fadeOutFrame (nSmp d) s else s

/-! ## History depth, gaps and base slots (R92, R95, R96, R99) -/

/-- HD after a frame is written with re-label Δ (R92). (log 41: DEDUCED, unsafe.) -/
def newHD (w n hd : Nat) (delta : Int) : Nat :=
  min (max ((hd : Int) + n - delta) 0).toNat (w - n)

/-- A crosspoint's D_CUR after a re-label (R95). -/
def relabelD (top : Nat) (delta : Int) (xp : XPoint) : XPoint :=
  { xp with dCur := (min (max ((xp.dCur : Int) - delta * 512) 0) top).toNat }

/-- The counters of R118 with the flags of the frame that runs. -/
def xpeCounts (d : Device) : SMap Nat :=
  (List.range (nObj d)).foldl (fun m o =>
    foldN 4 (fun c i => if (objAt d o).xpeFlags.getLsbD i then mmod 0 c i inc32 else c) m) d.xp.flagCnt

/-- Close of a frame on the windows (R90, R118) at the tick after it: B advances for every object whose frame was
written; crosspoints of a bay that has not run go to their targets and PENDING clears (R99); flag words are
counted, and the events of objects whose bay has not run raised; the last ramp-in frame is over with frame S + 15 (R104), and
the totals of R118 begin anew. -/
def xpeClose (k : BitVec 32) (e : Env) (d : Device) : Device :=
  let late := (List.range 16).filter (fun b => !d.xp.started.contains b)
  let d := forAll late (fun b d => forAll (bayObjs d b) (fun o d =>
    let d := forAll (List.range (nOut d)) (fun n d =>
      let a := xpIn d k (objAt d o) (xpAt d o n)
      setXp o n { xpAt d o n with dCur := a.dt, gCur := a.gt, dLast := a.dt, gLast := a.gt } d) d
    xpeFlagEvent e o (modObj o (fun x => { x with pendJump := false }) d)) d) d
  let w := winW (nObj d)
  let n := nSmp d
  let d := { d with xp := { d.xp with flagCnt := xpeCounts d } }
  let d := forAll (List.range (nObj d)) (fun o d =>
    modObj o (fun x => { x with
      winB := if x.written then (x.winB + n) % w else x.winB,
      written := false, xpePrev := x.xpeFlags, xpeFlags := 0 }) d) d
  { d with xp := { d.xp with
      partials := [], started := [], met := [], scarfCnt := [], holdCnt := []
      rampFrom := match d.xp.rampFrom with
        | some s => if (k - s).toNat ≥ 15 then none else some s
        | none => none } }

/-- The restart of windows and crosspoint ramps (R44, R92, R104, R496): from input frame `s` on. -/
def xpeRestart (s : BitVec 32) (d : Device) : Device :=
  { d with xp := { d.xp with rampFrom := some s },
           geo := { d.geo with objs := mmap {} (fun _ x =>
             { x with winB := 0, winHD := 0, winOn := false, gap := none, pendJump := false }) d.geo.objs } }

end Sys2Proof.Machine
end

