-- ==== Sys2Proof/Machine/Dsp.lean ====
section
/-! DEFINITION. Signal blocks (R139 to R141, R144, R145, R149, R151 to R158, R167 to R171): biquads and the held
filter designs, ramps, the FFT and the partitioned convolution, limiters, dither and requantisation. -/
namespace Sys2Proof.Machine

/-! ## Held designs (R140, R141, R151, R169, R543) -/

/-- tan of a real of the first quadrant. -/
def fxTan (x : Int) : Int := fxDiv (fxSin x) (fxCos x)

/-- 1 + 1/(3k²) + 1/(5k⁴) + … over k: artanh(1/k). -/
def fxAtanhInv (k : Nat) : Nat → Nat → Int → Int
  | 0, _, _ => 0
  | fuel + 1, n, t => Int.fdiv t (2 * n + 1 : Nat) + fxAtanhInv k fuel (n + 1) (Int.fdiv t (k * k : Nat))

/-- ln 10 = 3 ln 2 + ln 1.25. -/
def fxLn10 : Int := 6 * fxAtanhInv 3 50 0 (fxRat 1 3) + 2 * fxAtanhInv 9 30 0 (fxRat 1 9)

/-- 10^(a / b) for a small exponent. -/
def fxPow10 (a b : Nat) : Int := fxExp (fxMul fxLn10 (fxRat a b))

/-- A second-order Butterworth high-pass at `f` Hz (R140), each coefficient the F36 value nearest to the real one. -/
def butterHp (f fs : Nat) : Biq :=
  let k := fxTan (fxMul fxPi (fxRat f fs))
  let r2k := fxMul (fxSqrt (2 * fxOne)) k
  let k2 := fxMul k k
  let b0 := fxDiv fxOne (fxOne + r2k + k2)
  { b0 := fxF36 b0, b1 := fxF36 (-2 * b0), b2 := fxF36 b0, a1 := fxF36 (fxMul (2 * (k2 - fxOne)) b0),
    a2 := fxF36 (fxMul (fxOne - r2k + k2) b0) }

/-- Section m of the default WFS pre-filter (R141): b0, b1, a1 with ω scaled by 1/c. -/
def wfsSection (fs m : Nat) : Int × Int × Int :=
  let tz := fxTan (fxMul fxPi (fxRat (100 * pow2 m) fs))
  let tp := fxTan (fxMul fxPi (fxMul (fxSqrt (2 * fxOne)) (fxRat (100 * pow2 m) fs)))
  let q := fxDiv (fxDiv tp tz) (tp + fxOne)
  (fxMul q (tz + fxOne), fxMul q (tz - fxOne), fxDiv (tp - fxOne) (tp + fxOne))

/-- Biquad from sections m and m + 1, the numerator scaled by 1/2 = 16^(−1/4) in biquad 0 (R141). -/
def wfsBiq (fs m : Nat) (half : Bool) : Biq :=
  let (b0, b1, a1) := wfsSection fs m
  let (c0, c1, d1) := wfsSection fs (m + 1)
  let h : Int → F36 := fun x => fxF36 (if half then Int.fdiv x 2 else x)
  { b0 := h (fxMul b0 c0), b1 := h (fxMul b0 c1 + fxMul b1 c0), b2 := h (fxMul b1 c1),
    a1 := fxF36 (a1 + d1), a2 := fxF36 (fxMul a1 d1) }

/-- The default WFS pre-filter for a sample rate (R141). -/
def wfsDefault (fs : Nat) : Biq × Biq := (wfsBiq fs 0 true, wfsBiq fs 2 false)

/-- Defaults given as functions of fs (R144, R151). -/
def pkRelDefault (fs : Nat) : F36 := fxF36 (fxPow10 5 fs)
def rmsADefault (fs : Nat) : F36 := fxF36 (fxOne - fxExp (fxRat (-20) fs))
def rmsAttDefault (fs : Nat) : F36 := fxF36 (fxOne - fxExp (fxRat (-200) fs))
def rmsRelDefault (fs : Nat) : F36 := fxF36 (fxPow10 1 (2 * fs))
def dpRelDefault (fs : Nat) : F36 := fxF36 (fxPow10 1 fs)

/-! ## Biquads (R153) -/

/-- One sample through a section. -/
def biqStep (c : Biq) (s : BiqSt) (x : F36) : F36 × BiqSt :=
  let y := fadd (fmul c.b0 x) s.s1
  (y, { s1 := fadd (fsub (fmul c.b1 x) (fmul c.a1 y)) s.s2, s2 := fsub (fmul c.b2 x) (fmul c.a2 y) })

/-- A frame through a section. -/
def biqFrame (c : Biq) (s : BiqSt) (l : List F36) : List F36 × BiqSt :=
  l.foldl (fun a x => let r := biqStep c a.2 x; (a.1 ++ [r.1], r.2)) ([], s)

/-- A frame through sections in series, in increasing index. -/
def bankFrame : List Biq → List BiqSt → List F36 → List F36 × List BiqSt
  | [], _, l => (l, [])
  | c :: cs, st, l =>
    let r := biqFrame c (st.headD {}) l
    let q := bankFrame cs st.tail r.1
    (q.1, r.2 :: q.2)

/-! ## Ramps (R152) -/

/-- Gain at sample `i` of frame `q` of a linear ramp of `m` frames: gc + (gt − gc) × ((j + 1) / (m N)). -/
def rampGain (n m q : Nat) (gc gt : F36) (i : Nat) : F36 :=
  if q * n + i + 1 = m * n then fcanon gt
  else fadd gc (fmul (fsub gt gc) (f36Rat (q * n + i + 1) (m * n)))

/-! ## FFT and convolution (R156 to R158) -/

/-- W[k] (R157). -/
def fftW (k : Nat) : F36 × F36 := (fxF36 (fxCosPi k 8192), fxF36 (-(fxSinPi k 8192)))

/-- Even places and odd places of a list. -/
def unzipEO : List α → List α × List α
  | [] => ([], [])
  | [a] => ([a], [])
  | a :: b :: r => let q := unzipEO r; (a :: q.1, b :: q.2)

/-- The transform of size 2^k (R157): the even and the odd half, then the butterflies of length 2^k. -/
def fft (inv : Bool) : Nat → List (F36 × F36) → List (F36 × F36)
  | 0, l => l
  | k + 1, l =>
    let h := unzipEO l
    let p := fft inv k h.1
    let q := fft inv k h.2
    let len := pow2 (k + 1)
    let t := q.zipIdx.map (fun z =>
      let w := fftW (z.2 * (16384 / len))
      let wi := if inv then fneg w.2 else w.2
      (fsub (fmul w.1 z.1.1) (fmul wi z.1.2), fadd (fmul w.1 z.1.2) (fmul wi z.1.1)))
    p.zipWith (fun a b => (fadd a.1 b.1, fadd a.2 b.2)) t ++ p.zipWith (fun a b => (fsub a.1 b.1, fsub a.2 b.2)) t

/-- A partition group: size s = 2^(k), offset o of its first partition, used partitions U (R156). -/
structure ConvGroup where
  k : Nat
  o : Nat
  u : Nat
deriving DecidableEq, Repr

def ConvGroup.s (g : ConvGroup) : Nat := pow2 g.k

/-- Used groups for CONV_MAX and the mode (R156). -/
def convGroups (convMax : Nat) (long : Bool) : List ConvGroup :=
  let dbl := (List.range 8).map (fun g =>
    let s := 64 * pow2 g
    { k := 6 + g, o := 2 * s - 64, u := ([2 * s - 64, 3 * s - 64].filter (· < convMax)).length : ConvGroup })
  let tail := ((List.range (if long then 13 else 5)).filter (fun j => 32704 + 8192 * j < convMax)).length
  (dbl ++ [{ k := 13, o := 32704, u := tail : ConvGroup }]).filter (fun g => g.u ≠ 0)

/-- Spectrum of `s` real values followed by `s` zeros, bins 0 to s. -/
def spectrum (k : Nat) (x : List F36) : List (F36 × F36) :=
  (fft false (k + 1) (x.map (fun v => (v, 0)) ++ List.replicate (pow2 k) (0, 0))).take (pow2 k + 1)

def cmul (x h : F36 × F36) : F36 × F36 :=
  (fsub (fmul x.1 h.1) (fmul x.2 h.2), fadd (fmul x.1 h.2) (fmul x.2 h.1))

/-- z_b of a group: real part of the inverse transform of Y_b (R158). `x` reads the history at a global index. -/
def convZ (g : ConvGroup) (taps : List F36) (x : Int → F36) (b : Int) : List F36 :=
  let s := g.s
  let y := (List.range g.u).foldl (fun acc (j : Nat) =>
    let xs := spectrum g.k ((List.range s).map (fun (i : Nat) => x ((b - j) * s + i)))
    let hs := spectrum g.k ((List.range s).map (fun (i : Nat) => nth 0 taps (g.o + j * s + i)))
    let p := xs.zipWith cmul hs
    if j = 0 then p else acc.zipWith (fun a c => (fadd a.1 c.1, fadd a.2 c.2)) p) []
  let full := y ++ ((y.drop 1).take (s - 1)).reverse.map (fun c => (c.1, fneg c.2))
  (fft true (g.k + 1) full).map (fun c => fscale c.1 (-((g.k : Int) + 1)))

/-- c(G) of a group for the samples G0, …, G0 + n − 1. -/
def convGroupOut (g : ConvGroup) (taps : List F36) (x : Int → F36) (g0 : Int) (n : Nat) : List F36 :=
  let s : Int := g.s
  let b0 := Int.fdiv (g0 - g.o) s
  let b1 := Int.fdiv (g0 + n - 1 - g.o) s
  let z := ([b0 - 1, b0] ++ (if b1 = b0 then [] else [b1])).map (fun b => (b, convZ g taps x b))
  let zAt : Int → Int → F36 := fun b i =>
    match z.find? (fun p => p.1 == b) with | some p => nth 0 p.2 i.toNat | none => 0
  (List.range n).map (fun (i : Nat) =>
    let gi := g0 + i
    let b := Int.fdiv (gi - g.o) s
    fadd (zAt (b - 1) (gi - (b - 1) * s - g.o)) (zAt b (gi - b * s - g.o)))

/-- The convolution of a frame (R158): the head, then the groups in increasing offset. -/
def convFrame (convMax : Nat) (long : Bool) (taps : List F36) (x : Int → F36) (g0 : Int) (n : Nat) : List F36 :=
  let head := (List.range n).map (fun (i : Nat) =>
    (taps.take 64).zipIdx.foldl (fun y p => fadd y (fmul p.1 (x (g0 + i - p.2)))) 0)
  (convGroups convMax long).foldl (fun y g => y.zipWith fadd (convGroupOut g taps x g0 n)) head

/-! ## Limiters (R145, R168) -/

/-- Limiter parameters of a frame (R168). -/
structure LimPar where
  rmsA : F36
  rmsAtt : F36
  rmsRel : F36
  pkRel : F36
  tp : F36
  t2 : F36
deriving DecidableEq, Repr

/-- One sample of the peak and RMS limiter: output, states, gr × gp. -/
def limStep (p : LimPar) (s : LimSt) (x : F36) : F36 × LimSt :=
  let e := fadd s.e (fmul (fsub (fmul x x) s.e) p.rmsA)
  let gr := fmin (fmul s.gr p.rmsRel) fOne
  let gr :=
    if flt p.t2 e then
      let t := fsqrt (fdiv p.t2 e)
      if flt t gr then fadd gr (fmul (fsub t gr) p.rmsAtt) else gr
    else gr
  let xr := fmul x gr
  let gp := fmin (fmul s.gp p.pkRel) fOne
  let gp := if flt p.tp (fabs (fmul xr gp)) then fdiv p.tp (fabs xr) else gp
  (fmul xr gp, { e := e, gr := gr, gp := gp })

/-- A frame through the limiter, with the smallest gr × gp. -/
def limFrame (p : LimPar) (s : LimSt) (l : List F36) : List F36 × LimSt × F36 :=
  l.foldl (fun a x =>
    let r := limStep p a.2.1 x
    (a.1 ++ [r.1], r.2, fmin a.2.2 (fmul r.2.gr r.2.gp))) ([], s, fOne)

/-- One sample of a direct path's limiter (R145). -/
def dpLimStep (rel thr g x : F36) : F36 × F36 :=
  let g := fmin (fmul g rel) fOne
  let g := if flt thr (fabs (fmul x g)) then fdiv thr (fabs x) else g
  (fmul x g, g)

/-! ## Dither and requantisation (R170, R171) -/

/-- The mixing function of R170. -/
def mix32 (v : BitVec 32) : BitVec 32 :=
  let v := (v ^^^ (v >>> 16)) * 0x7FEB352D#32
  let v := (v ^^^ (v >>> 15)) * 0x846CA68B#32
  v ^^^ (v >>> 16)

/-- The dither value t of output `n` at global sample index `c` mod 2^32 (R170). -/
def ditherOf (n : Nat) (c : BitVec 32) : F36 :=
  let k := BitVec.ofNat 32 (n * 0x9E3779B9)
  let ra := (mix32 (2 * c + k)).toNat >>> 8
  let rb := (mix32 (2 * c + 1 + k)).toNat >>> 8
  ofDy ⟨(ra : Int) - rb, -24⟩

/-- Requantisation to word length `w` (R171): PCM code and whether it was limited. -/
def requant (w : Nat) (dith : Option F36) (v : F36) : Int × Bool :=
  let q := fscale v ((w : Int) - 1)
  let q := match dith with | some t => fadd q t | none => q
  let k := dyRound (toDy q)
  let top : Int := pow2 (w - 1)
  let lim := if k < -top then -top else if k > top - 1 then top - 1 else k
  (lim * (pow2 (24 - w) : Nat), decide (lim ≠ k))

/-- Conversion for the delay store and object audio (R91): nearest code, limited; and whether it was limited. -/
def toPcm (v : F36) : Int × Bool :=
  let k := dyRound ⟨(toDy v).m, (toDy v).e + 23⟩
  (pcmSat k, decide (pcmSat k ≠ k))

/-! ## Concealment weights over a frame (R125, R131, R133) -/

/-- A frame with fade 0 none, 1 in, 2 out. -/
def faded (n fade : Nat) (l : List F36) : List F36 :=
  if fade = 1 then fadeInFrame n l else if fade = 2 then fadeOutFrame n l else l

end Sys2Proof.Machine
end

