-- ==== Sys2Proof/Machine/Ingress.lean ====
section
/-! DEFINITION. Routing and the ingress stage (R137, R139, R141, R142, R90 to R96): the routed frame of a destination,
the WFS pre-filter, conversion, object bulk delay, the re-label and the write into the window. -/
namespace Sys2Proof.Machine

/-- The sealed frame of a source for the input frame whose tasks run; an unmapped or silent source is +0. -/
def sourceFrame (d : Device) (src : Nat) : List F36 :=
  if src = 0 then silence (nSmp d) else mget (silence (nSmp d)) d.inp.sources src

/-- Weights of a crossfade at sample `i` (R137): old, new. -/
def xfWeights (n : Nat) (f : XFade) (i : Nat) : F36 × F36 :=
  if f.m = 1 then (fmul f.gOld (wOut n i), fmul f.gNew (wIn n i))
  else
    let u := f36Rat (f.q * n + i + 1) (f.m * n)
    (fmul f.gOld (fsub fOne u), fmul f.gNew u)

/-- The crossfade that the frame renders: one that runs, or one that the frame's route starts (R137). -/
def fadeNow (r : RouteState) : Option XFade :=
  match r.fade with
  | some f => some f
  | none =>
    if r.live.src ≠ r.prev.src then
      some { oldSrc := r.prev.src, gOld := r.prev.gain, gNew := r.live.gain, q := 0, m := r.live.xf }
    else none

/-- The routed frame x(i) of a destination (R137). (log 50: DEDUCED, unsafe.) -/
def routeFrame (d : Device) (r : RouteState) : List F36 :=
  let n := nSmp d
  let s := sourceFrame d r.live.src
  match fadeNow r with
  | some f =>
    let so := sourceFrame d f.oldSrc
    (List.range n).map (fun i =>
      let w := xfWeights n f i
      fadd (fmul (nth 0 so i) w.1) (fmul (nth 0 s i) w.2))
  | none => (List.range n).map (fun i => fmul (nth 0 s i) (xpGain n false r.prev.gain r.live.gain i))

/-- The crossfade after the frame. -/
def fadeNext (r : RouteState) : RouteState :=
  match fadeNow r with
  | some f => { r with fade := if f.q + 1 < f.m then some { f with q := f.q + 1 } else none }
  | none => r

/-- The pre-filter's two sections in force. -/
def wfsOf (d : Device) (c : WfsCoef) : Biq × Biq := c.coef.getD (wfsDefault (fsHz d))

/-- The WFS pre-filter of a frame (R141): output and states. -/
def wfsRun (c : Biq × Biq) (s0 s1 : BiqSt) (l : List F36) : List F36 × BiqSt × BiqSt :=
  let a := biqFrame c.1 s0 l
  let b := biqFrame c.2 s1 a.1
  (b.1, a.2, b.2)

/-- Step 2 of R142: the pre-filter for an object whose law for the frame is WFS; a load crossfades. -/
def wfsStep (d : Device) (x : ObjState) (l : List F36) : List F36 × ObjState :=
  if x.canon.law ≠ .wfs then (l, { x with wfsOn := false }) else
  let s0 := if x.wfsOn then x.wfs0 else {}
  let s1 := if x.wfsOn then x.wfs1 else {}
  let (y, t0, t1) := wfsRun (wfsOf d d.inp.wfsLive) s0 s1 l
  let y := if d.inp.wfsLive.bank ≠ d.inp.wfsPrev.bank then
      scarfFrame (nSmp d) (wfsRun (wfsOf d d.inp.wfsPrev) s0 s1 l).1 y else y
  (y, { x with wfs0 := t0, wfs1 := t1, wfsOn := true })

/-- A sample of a bulk-delay line by its count since the start of rendering; 0 where none was written (R94). -/
def lineAt (line : SMap Int) (idx : Int) : Int := if idx < 0 then 0 else mget 0 line (idx.toNat % 262160)

/-- Write a frame into a bulk-delay line at count `depth`. -/
def lineWrite (line : SMap Int) (depth : Nat) (pcm : List Int) : SMap Int :=
  msets 0 line (pcm.zipIdx.map (fun p => ((depth + p.2) % 262160, p.1)))

/-- Fill up to 32 labels of a gap from its oldest (R96): the labels and PCM to store, and the gap left.
(log 50: DEDUCED, unsafe.) -/
def gapFill (line : SMap Int) (cur : Int) (bulk : Nat) (g : Gap) : Int × List Int × Option Gap :=
  let c := min 32 g.left
  let l0 : Int := -(g.oldest : Int)
  (l0, (List.range c).map (fun (j : Nat) => lineAt line (cur + l0 + j - bulk)),
    if g.left ≤ 32 then none else some { oldest := g.oldest - c, left := g.left - c })

/-- The ingress task of object `o` for input frame `k` (R142). (log 50: DEDUCED, unsafe.) -/
def ingestObj (k : BitVec 32) (o : Nat) (d : Device) : Device :=
  let n := nSmp d
  let w := winW (nObj d)
  let x := objAt d o
  let routed := routeFrame d x.route
  let reemit := routed.map (fun v => (toPcm v).1)
  let (y, x) := wfsStep d { x with route := fadeNext x.route } routed
  let conv := y.map toPcm
  let clip := conv.any (·.2)
  let pcm := conv.map (·.1)
  let cur := x.bulkDepth
  let en := (cfg d).objBulkEn
  let line := if en then lineWrite x.bulkLine cur pcm else x.bulkLine
  let b1 := x.bulkLive
  let frame := if en && b1 ≠ 0 then (List.range n).map (fun (i : Nat) => lineAt line ((cur : Int) + i - b1)) else pcm
  let first := k = d.pwr.startFn || !x.winOn
  let delta : Int := if first then 0 else (x.bulkLive : Int) - x.bulkPrev
  let base := (((x.winB : Int) - delta) % (w : Int)).toNat
  let hd := if x.winOn then newHD w n x.winHD delta else 0
  let gap := if delta < 0 then some { oldest := delta.natAbs, left := delta.natAbs : Gap }
    else x.gap.map (fun g => { g with oldest := g.oldest + n })
  let d := when (delta ≠ 0) (fun d => forAll (List.range (nOut d))
    (fun j d => setXp o j (relabelD (maxD (nObj d)) delta (xpAt d o j)) d) d) d
  let d := winWrite o base 0 frame d
  let (d, gap) := match gap with
    | none => (d, none)
    | some g =>
      let f := gapFill line cur b1 g
      (winWrite o base f.1 f.2.1 d, f.2.2)
  let fl : BitVec 4 := if clip then 1#4 else 0#4
  setObj o { x with winB := base, winHD := hd, winOn := true, gap := gap, bulkLine := line,
                    bulkDepth := if en then cur + n else cur, reemit := reemit, written := true,
                    xpeFlags := x.xpeFlags ||| fl } d

end Sys2Proof.Machine
end

