-- ==== Sys2Proof/Machine/Chains.lean ====
section
/-! DEFINITION. Output chains (chapter 05): blocks 1 to 9 of an output for an input frame, with ramps, scarfs and
meters. FRONT runs blocks 1 to 4, the CVE block 5, BACK blocks 6 to 9 (R147, R175). -/
namespace Sys2Proof.Machine

/-- Power channel that output `n` is assigned to, if any (R148, R179). -/
def pchOfOut (d : Device) (n : Nat) : Option Nat :=
  let l := (cfg d).pchOut
  let i := l.findIdx (· == n)
  if d.pwr.spoke && i < l.length then some i else none

/-- Chain gain target GT = (TRIM × P) × M (R152). -/
def gainTarget (c : OutCfg) : F36 :=
  fmul (fmul c.trim (if c.pol then fneg fOne else fOne)) (if c.mute then 0 else fOne)

/-- XO_SRC of a configuration: the chain's own index by default (R151). -/
def xoSrcOf (c : OutCfg) (n : Nat) : Nat := c.xoSrc.getD n

/-- The bus sample read through the kernel at delay 0 over its history of 7 samples (R139). -/
def busAligned (hist x : List F36) (n : Nat) : List F36 :=
  let tap : Int → Tap := fun l => { v := if l < 0 then nth 0 hist (l + 7).toNat else nth 0 x l.toNat }
  (List.range n).map (fun i => (reading tap 0 i).1)

/-- Block 1 under one configuration (R139, R155): the crosspoint sum plus bus, or block 3 of chain XO_SRC. -/
def chainInput (d : Device) (n : Nat) (c : OutCfg) (x : List F36) (bus : List F36) : List F36 :=
  if xoSrcOf c n ≠ n then ((outAt d (xoSrcOf c n)).block3).getD (silence (nSmp d))
  else x.zipWith fadd bus

/-- Block 1 of the frame, scarfed where XO_SRC or BUS_ALIGN changed (R139, R162). -/
def block1 (d : Device) (n : Nat) (o : OutState) (bus : List F36) : List F36 :=
  let ns := nSmp d
  let xs := o.xsum.getD (silence ns)
  let al : Bool → List F36 := fun b => if b then busAligned o.dsp.busHist bus ns else bus
  let moved := xoSrcOf o.live n ≠ xoSrcOf o.prev n
  if moved then
    scarfFrame ns (chainInput d n o.prev xs (al o.prev.busAlign)) (chainInput d n o.live xs (al o.live.busAlign))
  else if o.live.busAlign ≠ o.prev.busAlign then
    chainInput d n o.live xs (scarfFrame ns (al o.prev.busAlign) (al o.live.busAlign))
  else chainInput d n o.live xs (al o.live.busAlign)

/-- Block 2 (R152): trim, polarity and mute with the gain ramp. -/
def block2 (n : Nat) (o : OutState) (x : List F36) : List F36 × ChainDsp :=
  let gt := gainTarget o.live
  match o.dsp.gain with
  | none => (x.map (fun v => fmul v gt), { o.dsp with gain := some gt, ramp := none })
  | some gc =>
    let ramp := if feq gt (gainTarget o.prev) then o.dsp.ramp
      else some { gc := gc, gt := gt, q := 0, m := o.live.gainRamp }
    match ramp with
    | none => (x.map (fun v => fmul v gc), o.dsp)
    | some r =>
      let g := rampGain n r.m r.q r.gc r.gt
      (x.zipIdx.map (fun p => fmul p.1 (g p.2)),
        { o.dsp with gain := some (g (n - 1)), ramp := if r.q + 1 < r.m then some { r with q := r.q + 1 } else none })

/-- A block of biquads under the scarf rule (R153, R162, R163): enables and banks before and after, states. -/
def bankBlock (n : Nat) (en0 en1 swapped : Bool) (b0 b1 : List Biq) (st : List BiqSt) (x : List F36) :
    List F36 × List BiqSt :=
  let old := if en0 then (bankFrame b0 st x).1 else x
  let st1 := if en0 then st.take (min b0.length b1.length) else []
  let new := if en1 then bankFrame b1 st1 x else (x, [])
  if en0 ≠ en1 || (en1 && swapped) then (scarfFrame n old new.1, new.2) else new

/-- Conv history key of a global sample index (R158): indices count modulo 2^32 × N. -/
def histKey (n : Nat) (g : Int) : Nat := (g % ((pow2 32 * n : Nat) : Int)).toNat

/-- Global index of sample 0 of input frame `k` (R158). -/
def gIdx (n : Nat) (k : BitVec 32) : Nat := k.toNat * n

/-- Block 5's input joins the history, which keeps the last 262,144 samples (R158). -/
def histPush (n : Nat) (k : BitVec 32) (x : List F36) (h : SMap F36) : SMap F36 :=
  let g := gIdx n k
  let m := pow2 32 * n
  let h := mdrop h (fun j => decide ((g + m - j) % m > 262144))
  msets 0 h (x.zipIdx.map (fun p => (g + p.2, p.1)))

/-- The convolution of the frame (R158, R162, R163), faded over a function reset of the CVE (R496). -/
def convBlock (d : Device) (k : BitVec 32) (n : Nat) (o : OutState) (x : List F36) : List F36 :=
  let ns := nSmp d
  let cm := (nth {} (cfg d).outs n).convMax
  let rd : Int → F36 := fun g => mget 0 o.convHist (histKey ns g)
  let run : OutCfg → List F36 := fun c =>
    if c.convEn then convFrame cm (cfg d).cveLong c.taps rd (gIdx ns k) ns else x
  let y := run o.live
  let y := if o.live.convEn ≠ o.prev.convEn || (o.live.convEn && o.live.convBank ≠ o.prev.convBank)
    then scarfFrame ns (run o.prev) y else y
  match d.chn.cveReset with
  | some af => if !o.live.convEn then y else if k = af then fadeOutFrame ns y
      else if k = af + 1 then fadeInFrame ns y else y
  | none => y

/-- FRONT of output `n` for input frame `k` with its routed bus frame: blocks 1 to 4, and the convolution's input. -/
def chFrontBus (bus : List F36) (k : BitVec 32) (n : Nat) (d : Device) : Device :=
  let ns := nSmp d
  let o := outAt d n
  let x := block1 d n o bus
  let hist := ((List.replicate 7 0 ++ o.dsp.busHist).drop o.dsp.busHist.length ++ bus)
  let (x, dsp) := block2 ns o x
  let (x, bq) := bankBlock ns o.prev.biqEn o.live.biqEn (o.prev.biqBank ≠ o.live.biqBank) o.prev.biq o.live.biq
    o.dsp.biqSt x
  let b3 := x
  let (x, xo) := bankBlock ns o.prev.xoEn o.live.xoEn (o.prev.xoBank ≠ o.live.xoBank) o.prev.xo o.live.xo o.dsp.xoSt x
  let cm := (nth {} (cfg d).outs n).convMax
  setOut n { o with
    dsp := { dsp with biqSt := bq, xoSt := xo, busHist := hist.drop (hist.length - 7) },
    route := fadeNext o.route, block3 := some b3, convIn := some x,
    convHist := if cm = 0 then o.convHist else histPush ns k x o.convHist
    convEnd := if cm = 0 then o.convEnd else gIdx ns k + ns } d

/-- The convolution history of every output is cleared (R165). -/
def clearHist (d : Device) : Device :=
  { d with chn := { d.chn with outs := mmap {} (fun _ (o : OutState) => { o with convHist := [] }) d.chn.outs } }

/-- FRONT of output `n` for input frame `k`. -/
def chFront (k : BitVec 32) (n : Nat) (d : Device) : Device := chFrontBus (routeFrame d (outAt d n).route) k n d

/-- CVE: the convolution output of output `n` for input frame `k`. -/
def chConv (k : BitVec 32) (n : Nat) (d : Device) : Device :=
  let o := outAt d n
  match o.convIn with
  | none => d
  | some x => setOut n { o with convOut := some (convBlock d k n o x) } d

/-- Block 6 (R167): the output bulk delay; answers the frame, the line and its written count. -/
def block6 (d : Device) (o : OutState) (x : List F36) : List F36 × SMap F36 × Nat :=
  if !(cfg d).outBulkEn then (x, o.bulkLine, o.dsp.bulkDepth) else
  let n := nSmp d
  let cur := o.dsp.bulkDepth
  let line := msets 0 o.bulkLine (x.zipIdx.map (fun p => ((cur + p.2) % 262160, fcanon p.1)))
  let rd : Nat → List F36 := fun b => if b = 0 then x else
    (List.range n).map (fun i => if cur + i < b then 0 else mget 0 line ((cur + i - b) % 262160))
  let y := rd o.live.outBulk
  (if o.live.outBulk ≠ o.prev.outBulk then scarfFrame n (rd o.prev.outBulk) y else y, line, cur + n)

/-- Limiter parameters of the frame (R168): in the spoke role, with the ceilings of the power stage. -/
def limPar (d : Device) (n : Nat) (o : OutState) : LimPar :=
  let c := o.live
  let fs := fsHz d
  let t2 := fmul c.rmsThr c.rmsThr
  let power := (pchOfOut d n).isSome
  { rmsA := c.rmsA.getD (rmsADefault fs), rmsAtt := c.rmsAtt.getD (rmsAttDefault fs),
    rmsRel := c.rmsRel.getD (rmsRelDefault fs), pkRel := c.pkRel.getD (pkRelDefault fs),
    tp := if power then fmin c.pkThr o.protPk else c.pkThr,
    t2 := if power then fmin t2 o.protMs else t2 }

/-- Block 7 (R168): the limiter under the scarf rule, with the smallest gr × gp. In the scarf frame in which LIM_EN clears
the meter takes 1.0, the gain of the new configuration. (log 118: DESIGN CHOICE, unsafe.) -/
def block7 (d : Device) (n : Nat) (o : OutState) (x : List F36) : List F36 × LimSt × F36 :=
  let p := limPar d n o
  let s0 := if o.prev.limEn then o.dsp.lim else {}
  let run := limFrame p s0 x
  if o.live.limEn = o.prev.limEn then (if o.live.limEn then run else (x, {}, fOne))
  else if o.live.limEn then (scarfFrame (nSmp d) x run.1, run.2.1, run.2.2)
  else (scarfFrame (nSmp d) run.1 x, {}, fOne)

/-- Block 8 (R169): the DC high-pass under the scarf rule. -/
def block8 (d : Device) (o : OutState) (x : List F36) : List F36 × BiqSt :=
  let s0 := if o.prev.dchpEn then o.dsp.dchp else {}
  let run := biqFrame (butterHp 5 (fsHz d)) s0 x
  if o.live.dchpEn = o.prev.dchpEn then (if o.live.dchpEn then run else (x, {}))
  else if o.live.dchpEn then (scarfFrame (nSmp d) x run.1, run.2)
  else (scarfFrame (nSmp d) run.1 x, {})

/-- Block 9 (R170, R171). -/
def block9 (d : Device) (k : BitVec 32) (n : Nat) (c : OutCfg) (x : List F36) : List (Int × Bool) :=
  x.zipIdx.map (fun p =>
    let g := BitVec.ofNat 32 (gIdx (nSmp d) k + p.2)
    requant c.outWl (if c.dither then some (ditherOf n g) else none) p.1)

/-- BACK of output `n` for input frame `k`: blocks 6 to 9 and the meters (R178). -/
def chBack (k : BitVec 32) (n : Nat) (d : Device) : Device :=
  let o := outAt d n
  let cm := (nth {} (cfg d).outs n).convMax
  let x := if cm = 0 then o.convIn.getD (silence (nSmp d)) else o.convOut.getD (silence (nSmp d))
  let (x, line, depth) := block6 d o x
  let (x, lim, gmin) := block7 d n o x
  let (x, dchp) := block8 d o x
  let q := block9 d k n o.live x
  setOut n { o with
    bulkLine := line, dsp := { o.dsp with lim := lim, dchp := dchp, bulkDepth := depth },
    blk8 := some x, pcm := some (q.map (·.1)), clip := add32 o.clip (q.filter (·.2)).length,
    peak := x.foldl (fun a v => fmax a (fabs v)) o.peak,
    sumSq := x.foldl (fun a v => fadd a (fmul v v)) o.sumSq, samples := o.samples + x.length,
    minGain := fmin o.minGain gmin } d

/-- Abandon every ramp and scarf of a chain at its target and zero its filter and limiter states (R41). -/
def chainZero (o : OutState) : OutState :=
  { o with dsp := { gain := some (gainTarget o.live), ramp := none, bulkDepth := o.dsp.bulkDepth },
           route := { o.route with fade := none } }

/-- A chain at the start of rendering (R44): no history, states zero, gain at its target without a ramp. -/
def chainStart (o : OutState) : OutState :=
  { app := o.app, live := o.app, prev := o.app, route := { app := o.route.app, live := o.route.app, prev := o.route.app },
    stgBiq := o.stgBiq, stgXo := o.stgXo, stgTaps := o.stgTaps, clip := o.clip, overruns := o.overruns }

end Sys2Proof.Machine
end

