-- ==== Sys2Proof/Machine/Common.lean ====
section
/-! DEFINITION. Consequences that several chapters share: causes of withdrawal (R240), pair states and their events
(R228), drawbar messages (R225), hardware faults (R378), and the completion of commands (R264, R265, R232). -/
namespace Sys2Proof.Machine

/-! ## Pair states and causes (R228, R240, R297) -/

/-- The value of a pair state (R228). -/
def pairNum : PairSt → Nat
  | .single => 0 | .active => 1 | .withdrawn => 2 | .inSync => 3 | .check => 4 | .detached => 5 | .resync => 6
  | .unfit => 7 | .stopped => 8

/-- Causes of withdrawal and unfitness (R297). -/
def causeEcc : Nat := 1
def causeBudget : Nat := 2
def causePatrol : Nat := 3
def causeClock : Nat := 4
def causeThermal : Nat := 5
def causeRerun : Nat := 6
def causeHost : Nat := 7
def causeReset : Nat := 8
def causeImage : Nat := 9
def causeResync : Nat := 10
def causeHw : Nat := 11
def causeMirror : Nat := 12
def causeDiverged : Nat := 13
def causeDrawbar : Nat := 14

/-- A cause of R240 found in this frame; it acts from the next tick. (log 89: DEDUCED, unsafe.) -/
def noteCause (c : Nat) (d : Device) : Device :=
  if d.pwr.spoke || d.pair.found.contains c then d
  else { d with pair := { d.pair with found := d.pair.found ++ [c] } }

/-- A change of pair state raises PAIR_STATE (R228). -/
def setPairSt (st : PairSt) (cause : Nat) (e : Env) (d : Device) : Device :=
  if d.pair.st = st then d
  else
    let d := raise 0x1004 0 (leBytes 1 (pairNum d.pair.st) ++ leBytes 1 (pairNum st) ++ leBytes 1 cause) e d
    { d with pair := { d.pair with st := st, cause := if cause = 0 then d.pair.cause else cause } }

/-- ACTIVE of R228. -/
def isActive (p : PairState) : Bool := p.st = .single || p.st = .active || p.st = .withdrawn

/-- FIT of R228 and R239 (DETACHED keeps FIT clear where it was entered from RESYNC or a demotion). -/
def isFit (p : PairState) : Bool :=
  match p.st with
  | .single => p.singleFit
  | .active => true
  | .inSync => true
  | .check => true
  | .detached => p.singleFit
  | _ => false

/-- SYNC of R228. -/
def isSync (p : PairState) : Bool := p.st = .inSync || p.st = .check

/-- A standby that renders: every state that is neither active nor stopped. (log 91: DEDUCED, unsafe.) -/
def isStandby (p : PairState) : Bool := !isActive p && p.st ≠ .stopped

/-- The Ethernet frame of a drawbar message, without FCS (R224, R225). (log 115: DESIGN CHOICE, safe.) -/
def drawFrame (typ : Nat) (payload : List Byte) (e : Env) (d : Device) : List Byte :=
  List.replicate 6 0xFF#8 ++ leBytes 6 (portAt d 2).mac.toNat ++ [0x88#8, 0xB5#8]
    ++ leBytes 1 typ ++ leBytes 1 (cfg d).pairId ++ leBytes 2 payload.length ++ leBytes 4 (cfg d).pairTag.toNat
    ++ leBytes 4 e.fn.toNat ++ leBytes 4 d.pair.seq.toNat ++ payload

/-- Send a drawbar message (R225): +1 per message; its frame waits in M2's media source (R410).
(log 115: DESIGN CHOICE, safe.) -/
def sendDraw (typ : Nat) (payload : List Byte) (e : Env) (d : Device) : Device :=
  if !paired d then d
  else
    let f := drawFrame typ payload e d
    let d := { d with pair := { d.pair with
      seq := d.pair.seq + 1, sent := d.pair.sent ++ [{ typ := typ, fn := e.fn, seq := d.pair.seq, payload := payload }] } }
    modPort 2 (fun x => { x with media := x.media ++ [f] }) d

/-- The mirror sequence number from which a standby that copies the pending queue goes on: that of the active's latest
STATUS (R231, R237). -/
def mseqNow (p : PairState) : BitVec 32 :=
  match p.peer with | some m => if m.active then m.mseq else p.mseq | none => p.mseq

/-- RESYNC from stage CONFIG (R237). A message RESYNC_REQ names the stage. (log 92: DEDUCED, unsafe.) -/
def enterResync (cause : Nat) (e : Env) (d : Device) : Device :=
  let d := setPairSt .resync cause e d
  let d := { d with pair := { d.pair with
    stage := 0, stageWait := 0, wanted := none, items := [], ahead := [], run := 0, rerun := none, singleFit := false, mseq := mseqNow d.pair
    ownDone := [], peerDone := [], resyncs := inc32 d.pair.resyncs } }
  sendDraw 5 (leBytes 1 0) e d

/-! ## Hardware faults (R378) -/

/-- A hardware fault of a kind, of a function: counted, reported at most once per kind in 60 frames, a cause of
withdrawal. (log 65: DEDUCED, unsafe.) -/
def hwFault (kind func : Nat) (e : Env) (d : Device) : Device :=
  let n := inc32 (mget 0 d.xbar.hw kind)
  let d := { d with xbar := { d.xbar with hw := mset 0 d.xbar.hw kind n } }
  let d := raiseLim kind 0x300B func (leBytes 1 kind ++ leBytes 1 0 ++ leBytes 4 n) e d
  noteCause causeHw d

/-! ## Results (R264, R265, R232) -/

/-- A result block waits on chip until the RESULT ring has room. -/
def pushResult (b : ResultBlk) (d : Device) : Device :=
  { d with cmd := { d.cmd with results := d.cmd.results ++ [b] } }

/-- MARKS of a command (R265): LATE, DEFERRED, CLAMPED, DATA, MIRRORED. -/
def marksOf (p : Pend) (data : Bool) : Byte :=
  BitVec.ofNat 8 (ofBits [p.late, p.deferred, p.clamped ≠ 0, data, p.fromMirror])

/-- The two hubs' statuses of one mirrored command differ (R232). (log 94: DEDUCED, unsafe.) -/
def mirrorDiff (mseq : BitVec 32) (active standby : Nat) (e : Env) (d : Device) : Device :=
  let d := raise 0x2020 0 (leBytes 2 (mseq.toNat % 65536) ++ leBytes 2 active ++ leBytes 2 standby) e d
  enterResync causeMirror e d

/-- What the DONE of a mirrored command means for the pair (R232). -/
def pairDone (p : Pend) (status : Nat) (e : Env) (d : Device) : Device :=
  match p.mseq with
  | none => d
  | some m =>
    if p.fromMirror then
      match d.pair.peerDone.find? (fun q => q.1 = m) with
      | some q =>
        let d := { d with pair := { d.pair with peerDone := d.pair.peerDone.filter (fun q => q.1 ≠ m) } }
        if q.2 = status then d else mirrorDiff m q.2 status e d
      | none =>
        if isActive d.pair then d
        else { d with pair := { d.pair with ownDone := d.pair.ownDone ++ [(m, status, e.fn)] } }
    else
      let d := sendDraw 9 (leBytes 4 m.toNat ++ leBytes 2 status ++ zeros 2) e d
      { d with pair := { d.pair with doneRepeat := d.pair.doneRepeat ++ [(m, status, 2)] } }

/-- Complete an accepted command: it leaves the queue and its DONE block is posted; a register form posts none
(R509). -/
def finishCmd (p : Pend) (status : Nat) (detail : List Nat) (area : Option Area) (e : Env) (d : Device) : Device :=
  let d := { d with cmd := { d.cmd with
    queue := d.cmd.queue.filter (fun q => q.uid ≠ p.uid)
    fence := if d.cmd.fence = some p.uid then none else d.cmd.fence } }
  if p.silent then d
  else
    let b : ResultBlk :=
      { done := true, marks := marksOf p area.isSome, status := status, opcode := p.opcode, func := p.d.func,
        tag := p.d.tag, ridx := p.ridx, af := p.af, detail := detail, notify := p.d.cflags.getLsbD 1, area := area }
    pairDone p status e (pushResult b d)

/-- Complete an accepted command by its number, where it still waits; DETAIL fixed at acceptance stands where the
completion gives none. (log 28: DESIGN CHOICE, safe.) -/
def finishUid (uid : BitVec 32) (status : Nat) (detail : List Nat) (e : Env) (d : Device) : Device :=
  match d.cmd.queue.find? (fun p => p.uid = uid) with
  | some p => finishCmd p status (if status = 0 && detail.isEmpty then p.detail else detail) none e d
  | none => d

/-- Change the queue's entry of a command. -/
def modPend (uid : BitVec 32) (f : Pend → Pend) (d : Device) : Device :=
  { d with cmd := { d.cmd with queue := d.cmd.queue.map (fun p => if p.uid = uid then f p else p) } }

end Sys2Proof.Machine
end

