-- ==== Sys2Proof/Machine/Clocks.lean ====
section
/-! DEFINITION. Device time, the epoch pair, the servo and the clock states (chapter 15), the register forms of
R509, and the first lock of the media PLL. -/
namespace Sys2Proof.Machine

/-! ## Device time (R428 to R431) -/

/-- 250 ppm in units of 2^−40 (R439). -/
def yMax : Int := 274877907

/-- A frequency word held within ±Y_MAX. -/
def clampY (v : Int) : Int := if v > yMax then yMax else if v < -yMax then -yMax else v

/-- INC of a frequency word: units of 2^−40 ns per CLK_CORE cycle (R428). -/
def incOf (y : Int) : Nat := (ratRound (5 * ((pow2 40 : Nat) + y)) 6).toNat

/-- Device time after some CLK_CORE cycles. -/
def timeAfter (c : ClkState) (cycles : Nat) : BitVec 72 :=
  if c.timeOn then c.time + BitVec.ofNat 72 (cycles * incOf c.y) else c.time

/-- Device time advances; a pass of TIME_NS through zero waits for its EPOCH_WRAP. (log 9: DESIGN CHOICE, unsafe.) -/
def advanceTime (cycles : Nat) (c : ClkState) : ClkState :=
  let t := timeAfter c cycles
  { c with time := t, wrapped := c.wrapped || decide (t.toNat < c.time.toNat) }

/-- 4 s + 294,967,296 ns: the time between two wraps of TIME_NS. -/
def wrapNs : Nat := 4294967296

/-- The pair advanced by one wrap (R431). -/
def nextEpoch (p : Epoch) : Epoch :=
  let ns := p.nsNext + wrapNs
  { secCur := p.secNext, nsCur := p.nsNext, secNext := p.secNext + ns / 1000000000, nsNext := ns % 1000000000 }

/-- System time of a device time taken now, in units of 2^−40 ns since the PTP epoch (R431). -/
def sysTime (c : ClkState) (t : BitVec 72) : Nat :=
  let s := if c.wrapped then c.epoch.secNext else c.epoch.secCur
  let n := if c.wrapped then c.epoch.nsNext else c.epoch.nsCur
  (s * 1000000000 + n) * pow2 40 + t.toNat

/-- Seconds, nanoseconds and fraction in units of 2^−40 ns of a system time. -/
def splitTime (t : Nat) : Nat × Nat × Nat :=
  (t / pow2 40 / 1000000000, t / pow2 40 % 1000000000, t % pow2 40)

/-- EPOCH_WRAP: TIME_NS passed zero: the pair advances (R431). -/
def epochWrap (d : Device) : Device :=
  if !d.clk.wrapped then d
  else { d with clk := { d.clk with wrapped := false
                                    epoch := if d.clk.epochValid then nextEpoch d.clk.epoch else d.clk.epoch } }

/-- The pair that EPOCH_SET carries is in range (R430). -/
def epochOk (p : Epoch) : Bool :=
  decide (p.nsCur ≤ 999999999) && decide (p.nsNext ≤ 999999999)
    && p.secNext * 1000000000 + p.nsNext = p.secCur * 1000000000 + p.nsCur + wrapNs

/-- The fields of EPOCH_SET (R280). -/
def epochArgs (args : List Byte) : Epoch :=
  { secCur := fld args 0 6, nsCur := fld args 8 4, secNext := fld args 16 6, nsNext := fld args 24 4 }

/-- Installation at AF (R430); `was` is TIME_NS at the arrival: a wrap between the two advances the pair once. -/
def epochInstall (p : Epoch) (was : Nat) (d : Device) : Device :=
  let p := if (timeNs d).toNat < was then nextEpoch p else p
  { d with clk := { d.clk with epoch := p, epochValid := true, wrapped := false } }

/-! ## States and events (R441, R447, R454) -/

def servoNum : ServoSt → Nat
  | .acquire => 0 | .locked => 1 | .hold => 2

def clkNum : ClkSt → Nat
  | .off => 0 | .acquire => 1 | .locked => 2 | .holdover => 3

/-- A change of servo state raises SERVO_STATE (R441). -/
def setServo (st : ServoSt) (e : Env) (d : Device) : Device :=
  if d.clk.servo = st then d
  else
    let old := d.clk.servo
    let d := { d with clk := { d.clk with servo := st, good := 0, badN := 0, y := if st = .hold then d.clk.yI else d.clk.y } }
    raise 0x1012 0 (leBytes 1 (servoNum old) ++ leBytes 1 (servoNum st)) e d

/-- A change of clock state raises CLK_STATE (R447). -/
def setClk (st : ClkSt) (e : Env) (d : Device) : Device :=
  if d.clk.st = st then d
  else
    let old := d.clk.st
    let d := { d with clk := { d.clk with st := st } }
    raise 0x1011 0 (leBytes 1 (clkNum old) ++ leBytes 1 (clkNum st) ++ leBytes 1 d.clk.ref) e d

/-! ## The servo (R438 to R442) -/

/-- Signed 32-bit saturation of an integer. -/
def sat32 (v : Int) : Nat := uext 32 (if v > 2147483647 then 2147483647 else if v < -2147483648 then -2147483648 else v)

/-- A servo sample that is dropped as stale (R438). -/
def servoStale (c : ClkState) (now meas : BitVec 32) : Bool :=
  decide ((now - meas).toNat > pow2 30) || (match c.lastMeas with | some m => earlier meas m | none => false)

/-- The frequency words after a sample (R439), and whether a clamp acted. -/
def servoUpdate (c : ClkState) (o : Int) : Int × Int × Bool :=
  let i := c.yI - Int.fdiv (o * c.ki) 65536
  let yi := clampY i
  let p := yi - Int.fdiv (o * c.kp) 65536
  (yi, clampY p, decide (yi ≠ i) || decide (clampY p ≠ p))

/-- The servo state after a sample (R441). -/
def servoNext (o : Int) (e : Env) (d : Device) : Device :=
  let c := d.clk
  let a := o.natAbs
  match c.servo with
  | .acquire =>
    let g := if a ≤ c.lockThr * 65536 then c.good + 1 else 0
    if g ≥ c.lockCnt then setServo .locked e d else { d with clk := { c with good := g } }
  | .locked =>
    let b := if a > c.unlockThr * 65536 then c.badN + 1 else 0
    if b ≥ c.unlockCnt then setServo .acquire e d else { d with clk := { c with badN := b } }
  | .hold => setServo (if a ≤ c.unlockThr * 65536 then .locked else .acquire) e d

/-- A step of device time (R442); frames that are not delivered yet lose their TS_VALID (R432). (log 102: DEDUCED, unsafe.) -/
def servoStep (o : Int) (e : Env) (d : Device) : Device :=
  let t := BitVec.ofInt 72 ((d.clk.time.toNat : Int) - o * (pow2 24 : Nat))
  let d := { d with clk := { d.clk with time := t, epochValid := false, wrapped := false, stepped := true } }
  let d := { d with eth := { d.eth with
    ports := mmap {} (fun _ (p : Port) => { p with
      rxNow := p.rxNow.map (fun r => (r.1, r.2.1, false))
      staging := p.staging.map (fun f => { f with tsValid := false }) }) d.eth.ports } }
  raise 0x1013 0 (leBytes 4 (sat32 (Int.fdiv (-o) 65536))) e d

/-- SERVO_OFFSET at its AF: one servo sample. (log 102: DEDUCED, unsafe.) -/
def servoSample (o : Int) (meas : BitVec 32) (e : Env) (d : Device) : Device :=
  if d.pwr.quiet || servoStale d.clk (timeNs d) meas then
    { d with clk := { d.clk with stale := inc32 d.clk.stale } }
  else
    let d := when (decide (o.natAbs ≥ d.clk.stepThr * 65536) && (!e.fnSync || !d.pwr.rendering)) (servoStep o e) d
    let u := servoUpdate d.clk o
    let d := { d with clk := { d.clk with yI := u.1, y := u.2.1, lastMeas := some meas, sinceSample := 0 } }
    let d := when (u.2.2 && d.clk.rangeWait = 0) (fun d =>
      raise 0x2018 0 (leBytes 4 (uext 32 d.clk.y)) e { d with clk := { d.clk with rangeWait := 6000 } }) d
    servoNext o e d

/-- SERVO_TIMEOUT (R441): no applied sample for SERVO_TIMEOUT frames. -/
def servoTimeout (e : Env) (d : Device) : Device :=
  when (decide (d.clk.sinceSample ≥ d.clk.timeout)) (setServo .hold e) d

/-! ## The FN step (R19, R442) -/

/-- The conditions of the FN step hold at a tick. -/
def fnStepDue (fnSync : Bool) (d : Device) : Bool :=
  d.clk.servo = .locked && d.clk.epochValid && (!fnSync || (d.clk.stepped && !d.pwr.rendering)) && d.clk.tickOn

/-- The word of the reference that MCLK follows, measured against CLK_CORE over the 60 frames that end one frame before the
latest tick (R448); the nominal ratio is 48.828125 = 3125 / 64. (log 144: DEDUCED, unsafe.) -/
def refWord (c : ClkState) : Int :=
  let l := (c.periods.drop 1).take 60
  let m := (l.map (·.2)).sum
  let k := 64 * (l.map (·.1)).sum
  if k = 0 then 0 else ratRound (((3125 * m : Nat) - (k : Nat) : Int) * (pow2 40 : Nat)) k

/-- Frequency word of logic MCLK (R444, R448): the servo's in SERVO mode, FREE_TRIM in FREE mode; an external reference's own
while LOCKED to it, the frozen one of the holdover clock else. (log 102: DEDUCED, unsafe; log 144: DEDUCED, unsafe.) -/
def mclkWord (c : ClkState) : Int :=
  if c.ref = 0 then clampY (c.y + c.yPhi) else if c.ref = 3 then c.freeTrim
  else if c.st = .locked then refWord c else c.holdWord

/-- The frame number of the new boundary: the first instant n / 6,000 s that lies at least 4,096 MCLK cycles after the
start of the tick in progress. -/
def stepFnx (c : ClkState) : Nat :=
  let t := sysTime c c.time
  let den := 1000000000 * pow2 40
  let w := ((pow2 40 : Nat) + mclkWord c).toNat
  -- t × 6000 / den + 2^40 / w, rounded up
  let num := t * 6000 * w + pow2 40 * den
  (num + den * w - 1) / (den * w)

/-- MCLK cycles of the lengthened tick, 4,096 to 8,191. -/
def stepLen (c : ClkState) : Nat :=
  let t := sysTime c c.time
  let den := 1000000000 * pow2 40
  let w := ((pow2 40 : Nat) + mclkWord c).toNat
  let num := (stepFnx c * den - t * 6000) * w * 4096
  min 8191 (max 4096 ((num + den * pow2 40 - 1) / (den * pow2 40)))

/-! ## Clock states (R447 to R452) -/

/-- References that must qualify and be aligned. -/
def refExternal (r : Nat) : Bool := r = 1 || r = 2

/-- The clock returns to LOCKED from step `s` of R450. -/
def clkStep (s : Nat) (d : Device) : Device := { d with clk := { d.clk with step := s, stepFrames := 0 } }

/-- The first step for the reference in use: an external reference qualifies, the others go to ACQUIRE at once. -/
def clkBegin (e : Env) (d : Device) : Device :=
  if refExternal d.clk.ref then clkStep 1 d else clkStep 3 (setClk .acquire e d)

/-- The first lock after power-up, or after the quiet state: steps 3 to 5 with no tick running.
(log 109: DEDUCED, unsafe.) -/
def firstLock (e : Env) (d : Device) : Device :=
  clkStep 3 (setClk .acquire e { d with clk := { d.clk with failures := 0, tickOn := false } })

/-- CLOCK_REF at its AF (R452): the holdover clock takes over at the current frequency. (log 144: DEDUCED, unsafe.) -/
def clockRef (r : Nat) (e : Env) (d : Device) : Device :=
  if d.clk.ref = r then d
  else
    let d := { d with clk := { d.clk with
      ref := r, failures := 0, aligned := false, stepOnLock := r = 0 && !d.pwr.rendering
      holdWord := mclkWord d.clk } }
    clkStep (if refExternal r then 1 else 3) (setClk .acquire e d)

/-- A condition that R449 detects for the reference in use. -/
def refCond (r c : Nat) : Bool :=
  c = 5 || (r = 1 && (c = 1 || c = 2 || c = 3)) || (r = 2 && c = 4)

/-- REF_LOST: from LOCKED to HOLDOVER, the holdover clock at the reference's measured frequency (R448); a fault while the
reference qualifies restarts the count, a fault in a later step starts anew (R449, R450). -/
def refLost (c : Nat) (e : Env) (d : Device) : Device :=
  if !refCond d.clk.ref c then d
  else if d.clk.st = .locked then
    let d := raise 0x2017 0 (leBytes 1 c) e d
    let d := setClk .holdover e { d with clk := { d.clk with
      failures := 0, aligned := false, holdWord := mclkWord d.clk } }
    clkBegin e d
  else if refExternal d.clk.ref && d.clk.step ≥ 1 && c ≠ 5 then
    clkStep 1 (if d.clk.step ≥ 2 then setClk .holdover e d else d)
  else d

/-- REF_QUALIFIED: REF_QUAL frames without a fault (R450 step 1). -/
def refQualified (e : Env) (d : Device) : Device :=
  if d.clk.step = 1 && decide (d.clk.stepFrames ≥ d.clk.refQual) then clkStep 2 (setClk .acquire e d) else d

/-- ALIGN_DONE (R450 step 2). -/
def alignDone (d : Device) : Device := when (d.clk.step = 2) (clkStep 3) d

/-- BAND_SEARCH_DONE (R450 step 3). -/
def bandSearchDone (d : Device) : Device := when (d.clk.step = 3) (clkStep 4) d

/-- MEDIA_PLL_LOCK (R450 steps 4 and 5): LOCKED; the first lock starts the tick. -/
def mediaPllLock (e : Env) (d : Device) : Device :=
  if d.clk.step = 4 && (!d.clk.tickOn || decide (d.clk.stepFrames ≥ 60)) then
    let d := setClk .locked e (clkStep 0 d)
    { d with clk := { d.clk with failures := 0, tickOn := true, stepped := d.clk.stepped || d.clk.stepOnLock
                                 stepOnLock := false } }
  else d

/-- MEDIA_PLL_TIMEOUT: step 3 or 4 unfinished in 300 frames restarts; the third failure raises MEDIA_PLL_FAIL. -/
def mediaPllTimeout (e : Env) (d : Device) : Device :=
  if (d.clk.step = 3 || d.clk.step = 4) && (!d.clk.tickOn || decide (d.clk.stepFrames ≥ 300)) then
    let n := d.clk.failures + 1
    let d := { d with clk := { d.clk with failures := n } }
    if n < 3 then clkStep 3 d
    else
      let d := raise 0x201B 0 (leBytes 1 n) e d
      clkStep 0 (setClk .holdover e d)
  else d

/-- MEDIA_PLL_RETRY: every 6,000 frames after the failure, from step 1. -/
def mediaPllRetry (e : Env) (d : Device) : Device :=
  if d.clk.st = .holdover && d.clk.step = 0 && d.clk.failures ≥ 3
    && (!d.clk.tickOn || decide (d.clk.stepFrames ≥ 6000)) then
    clkBegin e { d with clk := { d.clk with failures := 0 } }
  else d

/-- What every tick does to the clocks: device time, phase error and yφ (R445), the frames counted by R441, R450. `fnx`
is the frame that begins. -/
def clkTick (cycles : Nat) (fnx : BitVec 64) (fnSync : Bool) (c : ClkState) : ClkState :=
  let c := advanceTime cycles c
  let ok := fnSync && c.epochValid
  let num : Int := (sysTime c c.time : Int) * 6 - (fnx.toNat * 1000000 * pow2 40 : Nat)
  let phi := Int.fdiv num (6 * pow2 40 : Nat)
  let phi := if ok then phi else 0
  { c with
    phi := phi, yPhi := if ok && c.ref = 0 then clampY (-phi * 10995) else 0
    aligned := ok && c.ref = 0 && decide (phi.natAbs ≤ 1000)
    sinceSample := c.sinceSample + 1, stepFrames := c.stepFrames + 1, rangeWait := c.rangeWait - 1
    tickLen := 4096
    periods := if fnx = 0 then [] else ((cycles, c.tickLen) :: c.periods).take 61 }

/-- LOCK_MEDIA: ones of the repeating 4-bit pattern (R453). -/
def lockMedia (d : Device) : Nat :=
  if !d.alive || d.pwr.quiet || !d.clk.tickOn then 0
  else if d.clk.st = .locked then (if d.clk.ref = 0 && d.clk.aligned then 4 else 3)
  else 2

/-! ## Commands of the environment and of the host's register accesses -/

def execRefLost (cond : Nat) (s : State) : Host.Outcome State Fault Refusal := act (fun e d => refLost cond e d) s
def execRefQualified (s : State) : Host.Outcome State Fault Refusal := act refQualified s
def execAlignDone (s : State) : Host.Outcome State Fault Refusal := act (fun _ d => alignDone d) s
def execBandSearchDone (s : State) : Host.Outcome State Fault Refusal := act (fun _ d => bandSearchDone d) s
def execMediaPllLock (s : State) : Host.Outcome State Fault Refusal := act mediaPllLock s
def execMediaPllTimeout (s : State) : Host.Outcome State Fault Refusal := act mediaPllTimeout s
def execMediaPllRetry (s : State) : Host.Outcome State Fault Refusal := act mediaPllRetry s
def execServoTimeout (s : State) : Host.Outcome State Fault Refusal := act servoTimeout s
def execEpochWrap (s : State) : Host.Outcome State Fault Refusal := act (fun _ d => epochWrap d) s

/-- A read of TIME_NS `cyc` CLK_CORE cycles after the latest tick: what it returns, and TIME_FRAC and TIME_FN latched
(R429). (log 24: DESIGN CHOICE, safe.) -/
def timeNsRead (cyc : Nat) (e : Env) (d : Device) : Nat × Device :=
  let t := (timeAfter d.clk cyc).toNat
  (t / pow2 40, { d with clk := { d.clk with timeFrac := BitVec.ofNat 16 (t / pow2 24), timeFn := e.fn } })

/-- TIME_NS_READ: a read of TIME_NS. -/
def execTimeNsRead (cyc : Nat) (s : State) : Host.Outcome State Fault Refusal :=
  hostAct (fun e d => (timeNsRead cyc e d).2) s

/-- A submission by register: at most 8 wait per form, a further one sets REG_DROP (R509).
(log 103: DEDUCED, unsafe.) -/
def regSubmit (l : List CmdDesc) (c : CmdDesc) : List CmdDesc × Bool := if l.length < 8 then (l ++ [c], false) else (l, true)

/-- SRV_GO: a servo sample from SRV_OFS and SRV_TMEAS (R508, R509); the quiet state drops it as stale (R488). -/
def srvGo (d : Device) : Device :=
  if d.pwr.quiet then { d with clk := { d.clk with stale := inc32 d.clk.stale } } else
  let c : CmdDesc := { args := leBytes 8 d.clk.srvOfs.toNat ++ leBytes 4 d.clk.srvMeas.toNat ++ zeros 20 }
  let r := regSubmit d.cmd.srv c
  { d with cmd := { d.cmd with srv := r.1 }, clk := { d.clk with regDrop := d.clk.regDrop || r.2 } }

/-- EP_GO: the epoch pair from the EP registers. -/
def epGo (d : Device) : Device :=
  let k := d.clk
  let c : CmdDesc :=
    { args := leBytes 6 k.epSecCur.toNat ++ zeros 2 ++ leBytes 4 k.epNsCur.toNat ++ zeros 4
        ++ leBytes 6 k.epSecNext.toNat ++ zeros 2 ++ leBytes 4 k.epNsNext.toNat ++ zeros 4 }
  let r := regSubmit d.cmd.ep c
  { d with cmd := { d.cmd with ep := r.1 }, clk := { d.clk with regDrop := d.clk.regDrop || r.2 } }

/-- CREF: a write with GO [31] set submits the reference of [1:0]. -/
def crefWrite (v : BitVec 32) (d : Device) : Device :=
  if !v.getLsbD 31 then d
  else
    let c : CmdDesc := { args := leBytes 1 (v.toNat % 4) ++ zeros 31 }
    let r := regSubmit d.cmd.cref c
    { d with cmd := { d.cmd with cref := r.1 }, clk := { d.clk with regDrop := d.clk.regDrop || r.2 } }

def execSrvGo (s : State) : Host.Outcome State Fault Refusal := hostAct (fun _ d => srvGo d) s
def execEpGo (s : State) : Host.Outcome State Fault Refusal := hostAct (fun _ d => epGo d) s
def execCref (v : BitVec 32) (s : State) : Host.Outcome State Fault Refusal := hostAct (fun _ d => crefWrite v d) s

end Sys2Proof.Machine
end

