-- ==== Sys2Proof/Machine/Inputs.lean ====
section
/-! DEFINITION. The seal of the sources (chapter 04, R244 to R246, R458, R460): receive channels with concealment and
muting, hub selection and switching, host rings, AES3 receivers through rate bridges and slip buffers, owners of
local sources, direct paths. -/
namespace Sys2Proof.Machine

/-! ## Receive channels (R122 to R126, R426) -/

/-- First source ID of a receive slot: NET, HUB_OBJ or HUB_FEED (R119, R292); none for other formats. -/
def slotBase (s : RxSlot) : Option Nat :=
  if s.format = 1 || s.format = 2 then some (0x1000 + s.base)
  else if s.format = 4 then some (0x5000 + s.base)
  else if s.format = 5 then some (0x6000 + s.base)
  else none

/-- What a source key is mapped to: slot number, channel, and the stream it belongs to. -/
structure RxMap where
  key : Nat
  slot : Nat
  chan : Nat
  fmt : Nat
  sid : BitVec 64
deriving DecidableEq, Repr

/-- The mappings of a slot table (R292). -/
def rxMaps (m : SMap RxSlot) : List RxMap :=
  m.flatMap (fun p => match slotBase p.2 with
    | none => []
    | some b => (List.range p.2.ch).map (fun c =>
        { key := 65536 * p.2.hub + b + c, slot := p.1, chan := c, fmt := p.2.format, sid := p.2.streamId }))

/-- HOLD_MAX and REVIVE_FRAMES of a slot (R125). -/
def slotHold (s : RxSlot) : Nat := s.holdMax

/-- The slots of a frame held on one path; all missing where nothing was received. -/
def rxSlots (n : Nat) (k : BitVec 32) (l : List RxFrame) : List (Option Int) :=
  match l.find? (fun f => f.frame = k) with
  | some f => (List.range n).map (fun i => nth none f.slots i)
  | none => List.replicate n none

/-- The longest run of missing slots is at most `h` (R125), `run` long so far. -/
def runsFit (h : Nat) : List (Option F36) → Nat → Bool
  | [], _ => true
  | some _ :: r, _ => runsFit h r 0
  | none :: r, run => decide (run + 1 ≤ h) && runsFit h r (run + 1)

/-- Missing slots filled with the nearest present sample before them (R125), +0 where there is none.
(log 46: DEDUCED, unsafe.) -/
def fillSlots : Option F36 → List (Option F36) → List F36
  | _, [] => []
  | _, some v :: r => v :: fillSlots (some v) r
  | last, none :: r => last.getD 0 :: fillSlots last r

/-- The last present sample. -/
def lastPresent (last : Option F36) (l : List (Option F36)) : Option F36 :=
  l.foldl (fun a x => match x with | some v => some v | none => a) last

/-- What the seal of a channel did: held samples, faded frames, whether it entered MUTED. -/
structure SealRes where
  chan : RxChan
  held : Nat := 0
  faded : Nat := 0
  muted : Bool := false
deriving DecidableEq, Repr

/-- The seal of one channel (R125). A MUTED channel stays muted here; STREAM_REVIVE returns it to LIVE.
(log 48: DEDUCED, unsafe.) -/
def sealChan (n holdMax : Nat) (c : RxChan) (slots : List (Option F36)) : SealRes :=
  let complete := slots.all Option.isSome
  let fill := fillSlots c.last slots
  let missing := (slots.filter Option.isNone).length
  let c1 := { c with last := lastPresent c.last slots, complete := complete, raw := fill }
  if !c.live then
    { chan := { c1 with streak := if complete then c.streak + 1 else 0, frame := silence n } }
  else if complete then { chan := { c1 with frame := fill } }
  else if runsFit holdMax slots 0 && (nth none slots (n - 1)).isSome then
    { chan := { c1 with frame := fill }, held := missing }
  else
    { chan := { c1 with live := false, streak := 0, frame := fadeOutFrame n fill }, held := missing, faded := 1,
      muted := true }

/-- STREAM_REVIVE (R125): the REVIVE_FRAMES-th complete frame of a MUTED channel returns it to LIVE, faded in. -/
def reviveChan (n revive : Nat) (c : RxChan) : RxChan :=
  if !c.live && c.streak ≥ revive then
    { c with live := true, streak := 0, frame := fadeInFrame n c.raw }
  else c

/-- Seal one mapped source key for frame `k` (R124 to R126, R426). `same` says that its mapping is unchanged.
(log 142: DEDUCED, unsafe.) -/
def sealKey (k : BitVec 32) (m : RxMap) (fresh same : Bool) (e : Env) (d : Device) : Device :=
  let n := nSmp d
  let s := mget {} d.inp.rxLive m.slot
  let b := mget {} d.inp.bufs (64 * m.slot + m.chan)
  let a0 := rxSlots n k b.p0
  let a1 := rxSlots n k b.p1
  let on0 := s.paths % 2 = 1
  let on1 := s.paths / 2 % 2 = 1
  let merged := a0.zipWith (fun x y => x.or y) a1
  let clash := (a0.zip a1).any (fun p => p.1.isSome && p.2.isSome && p.1 ≠ p.2)
  let c0 : RxChan := if fresh then {} else chanAt d m.key
  let slots := if same || fresh then merged.map (fun x => x.map ofPcm) else List.replicate n none
  let r := sealChan n (if same || fresh then s.holdMax else 0) c0 slots
  let c := if same || fresh then r.chan else { r.chan with live := false, streak := 0, last := none }
  let lost := fun (l : List (Option Int)) => (l.filter Option.isNone).length
  let d := setChan m.key c d
  let d := modRxCnt m.slot (fun q => { q with
    lost0 := add32 q.lost0 (if on0 then lost a0 else 0), lost1 := add32 q.lost1 (if on1 then lost a1 else 0),
    mismatch := add32 q.mismatch (if clash then 1 else 0), held := add32 q.held r.held,
    faded := add32 q.faded r.faded }) d
  let d := when clash (raiseLim m.slot 0x2005 0x73 (leBytes 2 m.slot) e) d
  when r.muted (raiseLim m.slot 0x2004 0x73 (leBytes 2 m.slot ++ leBytes 2 m.chan) e) d

/-- Seal every receive channel for frame `k` (R125, R426): mappings that ended fade out once. -/
def sealStreams (k : BitVec 32) (e : Env) (d : Device) : Device :=
  let now := rxMaps d.inp.rxLive
  let old := rxMaps d.inp.rxPrev
  let d := forAll now (fun m d =>
    match old.find? (fun q => q.key = m.key) with
    | none => sealKey k m true false e d
    | some q => sealKey k m false (q = m && d.inp.streamReset ≠ some k) e d) d
  let gone := old.filter (fun q => !now.any (fun m => m.key = q.key))
  let d := forAll gone (fun q d =>
    let r := sealChan (nSmp d) 0 (chanAt d q.key) (List.replicate (nSmp d) none)
    setChan q.key { frame := r.chan.frame } d) d
  let stale := d.inp.chans.filter (fun p => !now.any (fun m => m.key = p.1) && !gone.any (fun m => m.key = p.1))
  let d := forAll stale (fun p d => setChan p.1 {} d) d
  let keep : List RxFrame → List RxFrame := fun l => l.filter (fun f => later f.frame k)
  { d with inp := { d.inp with bufs := mmap {} (fun _ b => { p0 := keep b.p0, p1 := keep b.p1 : RxBuf }) d.inp.bufs } }

/-! ## Hub selection (R244 to R246) -/

/-- Hub X ranks above hub Y (R243). -/
def ranksAbove (xEpoch : BitVec 32) (xIsA : Bool) (yEpoch : BitVec 32) : Bool :=
  decide (yEpoch.toNat < xEpoch.toNat) || (xEpoch = yEpoch && xIsA)

/-- The hub selected at tick `k` (R244): 0 none, 1 A, 2 B; and whether it was taken without FIT. -/
def selectHub (p : PairState) (k : BitVec 32) : Nat × Bool :=
  let ca := p.hubA.cands.find? (fun q => q.1 = k)
  let cb := p.hubB.cands.find? (fun q => q.1 = k)
  let aOver := match ca, cb with | some a, some b => ranksAbove a.2.1 true b.2.1 | _, _ => ca.isSome
  let best : Bool → Bool → Nat := fun a b =>
    if a && b then (if aOver then 1 else 2) else if a then 1 else if b then 2 else 0
  let fit := best (ca.any (·.2.2)) (cb.any (·.2.2))
  if fit ≠ 0 then (fit, false)
  else
    let any := best ca.isSome cb.isSome
    if any ≠ 0 then (any, true) else (p.selected, false)

/-- The hub keys in use: source IDs of HUB_OBJ and HUB_FEED mapped for a hub. -/
def hubSrcs (d : Device) (hub : Nat) : List Nat :=
  ((rxMaps d.inp.rxLive).filter (fun m => m.key / 65536 = hub)).map (fun m => m.key % 65536)

/-- A hub delivered every channel in use complete (R245). -/
def hubComplete (d : Device) (hub : Nat) (srcs : List Nat) : Bool :=
  srcs.all (fun s => (chanAt d (65536 * hub + s)).complete)

/-- The hub sources of frame `k` (R126, R245, R246): the selected hub, substituted as a whole where it is
incomplete and the other is complete and fit, scarfed where the supplier changes and the frames differ. -/
def sealHubSources (k : BitVec 32) (e : Env) (d : Device) : Device :=
  let sel := d.pair.selected
  if sel = 0 then d else
  let other := 3 - sel
  let srcs := ((hubSrcs d 1) ++ (hubSrcs d 2)).eraseDups
  let ofit := ((if other = 1 then d.pair.hubA else d.pair.hubB).audio.filter (fun q => q.1 = k)).all (·.2)
  let subst := !hubComplete d sel srcs && ofit && hubComplete d other srcs
  let hub := if subst then other else sel
  let d := when subst (fun d =>
    let slots := ((rxMaps d.inp.rxLive).filter (fun m => m.key / 65536 = sel)).map (·.slot)
    forAll slots.eraseDups (fun s d => modRxCnt s (fun q => { q with substituted := inc32 q.substituted }) d) d) d
  let old := (srcs.map (fun s => mget 0 d.pair.supplier s)).find? (fun h => h ≠ 0 && h ≠ hub)
  let d := when old.isSome (fun d =>
    let d := raiseLim 0 0x1007 0x73 (leBytes 1 (old.getD 0) ++ leBytes 1 hub) e d
    { d with pair := { d.pair with switches := inc32 d.pair.switches } }) d
  forAll srcs (fun s d =>
    let was := mget 0 d.pair.supplier s
    let new := chanAt d (65536 * hub + s)
    let oc := chanAt d (65536 * was + s)
    let differ := was ≠ 0 && was ≠ hub && oc.complete && oc.frame ≠ new.frame
    let f := if differ then scarfFrame (nSmp d) oc.frame new.frame else new.frame
    let d := when differ (fun d =>
      match (rxMaps d.inp.rxLive).find? (fun m => m.key = 65536 * hub + s) with
      | some m => modRxCnt m.slot (fun q => { q with switchScarf := inc32 q.switchScarf }) d
      | none => d) d
    { d with inp := { d.inp with sources := mset [] d.inp.sources s f },
             pair := { d.pair with supplier := mset 0 d.pair.supplier s hub } }) d

/-! ## Host audio rings (R127, R128) -/

/-- Channels and container size of an audio ring from its ARG bytes (R256): CH, B, HOLD_MAX, REVIVE_FRAMES. -/
def ringCh (r : Ring) : Nat := fld r.arg 0 1
def ringB (r : Ring) : Nat := fld r.arg 1 1
def ringHold (r : Ring) : Nat := min 8 (fld r.arg 2 1)
def ringRevive (r : Ring) : Nat := max 1 (min 600 (fld r.arg 4 2))

/-- Seal frame `k` of a host ring (R128). -/
def sealHostRing (k : BitVec 32) (h : Nat) (e : Env) (d : Device) : Device :=
  let r := ringAt d (16 + h)
  if !r.run then d else
  let n := nSmp d
  let ch := ringCh r
  let a := mget {} d.ring.ain h
  let buf := (a.held.find? (fun p => p.1 = k)).map (·.2)
  let a := { a with held := a.held.filter (fun p => later p.1 k), expect := some (k + 1) }
  let d := { d with ring := { d.ring with ain := mset {} d.ring.ain h a } }
  forAll (List.range ch) (fun c d =>
    let slots := (List.range n).map (fun i => buf.map (fun b => ofPcm (nth 0 b (i * ch + c))))
    let a := mget {} d.ring.ain h
    let q := sealChan n (ringHold r) (mget {} a.chans c) slots
    let a := { a with chans := mset {} a.chans c q.chan }
    let d := { d with ring := { d.ring with ain := mset {} d.ring.ain h a },
                      inp := { d.inp with sources := mset [] d.inp.sources (0x4000 + 64 * h + c) q.chan.frame } }
    when q.muted (raiseLim (256 + h) 0x2004 0x00 (leBytes 2 (16 + h) ++ leBytes 2 c) e) d) d

/-! ## AES3 receivers (R129 to R132, R458, R460) -/

/-- Rates of R470 in Hz. -/
def aesRates : List Nat := [32000, 44100, 48000, 88200, 96000, 176400, 192000]

/-- A receiver is locked at the media rate. -/
def ainAtMediaRate (d : Device) (r : Nat) : Bool :=
  (ainAt d r).st = .locked && nth 0 aesRates (ainAt d r).rate = fsHz d

/-- A frame from a slip buffer (R132): the N oldest samples, one repeated where fewer than 4 remain, one dropped where
more than 28 remain. Answers the frame, the buffer, and whether it slipped. (log 46: DEDUCED, unsafe.) -/
def slipTake (n : Nat) (last : Int) (b : List Int) : List Int × List Int × Bool :=
  if b.length < n + 4 then
    let f := b.take (n - 1)
    let f := f ++ List.replicate (n - f.length) (f.getLast?.getD last)
    (f, b.drop (n - 1), true)
  else if b.length > n + 28 then ((b.drop 1).take n, b.drop (n + 1), true)
  else (b.take n, b.drop n, false)

/-- Samples of a rate bridge: the spec does not determine them (R129), each is a free value.
(log 15: DESIGN CHOICE, safe.) -/
def bridgeFrame (n : Nat) (d : Device) : List F36 × Device :=
  ((List.range n).map (fun i => Config.freeF36 (d.free + i)), { d with free := d.free + n })

/-- NA_MUTE on a subframe's frame (R460): fades by its flags. -/
def naApply (n : Nat) (s : AinSub) (l : List F36) : List F36 :=
  if s.naFade = 2 then fadeOutFrame n l else if s.naFade = 1 then fadeInFrame n l
  else if s.naMuted then silence n else l

/-- Store the two sealed subframes of receiver `r`. -/
def putAes (r : Nat) (l0 l1 : List F36) (d : Device) : Device :=
  let n := nSmp d
  let p := ainAt d r
  let s := mset [] d.inp.sources (0x2000 + 2 * r) (naApply n p.sub0 l0)
  let s := mset [] s (0x2000 + 2 * r + 1) (naApply n p.sub1 l1)
  let d := { d with inp := { d.inp with sources := s } }
  modAin r (fun p => { p with sub0 := { p.sub0 with naFade := 0 }, sub1 := { p.sub1 with naFade := 0 } }) d

/-- A bridge mutes (R131): the transition is counted and reported. -/
def bridgeMuted (r : Nat) (e : Env) (d : Device) : Device :=
  raise 0x100B (0x08 + r) [0] e (modAinMed r (fun m => { m with bridgeMute := inc32 m.bridgeMute }) d)

/-- The nominal rate of a locked receiver in SLIP mode is not the media rate (R132): counted and reported. -/
def rateMismatch (r : Nat) (e : Env) (d : Device) : Device :=
  let d := modAinMed r (fun m => { m with rateMismatch := inc32 m.rateMismatch }) d
  raise 0x2007 (0x08 + r) (leBytes 4 (nth 0 aesRates (ainAt d r).rate)) e d

/-- A slip buffer as a receiver enters slip mode (R132): 16 samples of +0, faded in. -/
def slipFilled : Slip := { s0 := List.replicate 16 0, s1 := List.replicate 16 0, fade := 1, audible := true }

/-- The receiver has entered slip mode: its buffer fills at the media rate, RATE_MISMATCH at any other (R132). -/
def slipEnter (r : Nat) (e : Env) (d : Device) : Device :=
  if ainAtMediaRate d r then modAinMed r (fun m => { m with buf := slipFilled }) d
  else when ((ainAt d r).st = .locked) (rateMismatch r e) (modAinMed r (fun m => { m with buf := {} }) d)

/-- Seal frame `k` of AES3 receiver `r`. A change of AIN_MODE acts on input frame AF (R27): it fades out and the receiver
goes on in its new mode (R131). (log 42: DEDUCED, unsafe.) -/
def sealAes (r : Nat) (e : Env) (d : Device) : Device :=
  let n := nSmp d
  let m := ainMedAt d r
  let change := m.slipLive ≠ m.slip
  if m.slip then
    let b := m.buf
    if !b.audible then
      let d := putAes r (silence n) (silence n) d
      modAinMed r (fun m => { m with slip := m.slipLive }) d
    else
      let (f0, b0, sl) := slipTake n b.last0 b.s0
      let (f1, b1, _) := slipTake n b.last1 b.s1
      let fade := if change then 2 else b.fade
      let out := fade = 2
      let d := putAes r (faded n fade (f0.map ofPcm)) (faded n fade (f1.map ofPcm)) d
      let d := modAinMed r (fun m => { m with
        slip := m.slipLive, slips := if sl then inc32 m.slips else m.slips,
        buf := { s0 := if out then [] else b0, s1 := if out then [] else b1, last0 := f0.getLast?.getD b.last0,
                 last1 := f1.getLast?.getD b.last1, fade := 0, audible := !out } }) d
      when sl (raiseLim r 0x2006 (0x08 + r) (leBytes 4 (ainMedAt d r).slips) e) d
  else
    let b := m.bridge
    if !b.audible then
      let d := putAes r (silence n) (silence n) d
      when change (fun d => slipEnter r e (modAinMed r (fun m => { m with slip := true, bridge := {} }) d)) d
    else
      let (f0, d) := bridgeFrame n d
      let (f1, d) := bridgeFrame n d
      let fade := if change then 2 else b.fade
      let d := putAes r (faded n fade f0) (faded n fade f1) d
      let d := when (fade = 1) (raise 0x100B (0x08 + r) [2] e) d
      let d := when (change && b.fade ≠ 2) (bridgeMuted r e) d
      let d := modAinMed r (fun m => { m with
        slip := m.slipLive, bridge := if fade = 2 then {} else { b with fade := 0 } }) d
      when change (slipEnter r e) d

/-- A bridge loses its lock, or rendering starts (R44, R131): an audible one fades out with its next frame and mutes. -/
def bridgeLoss (r : Nat) (e : Env) (d : Device) : Device :=
  let b := (ainMedAt d r).bridge
  let d := modAinMed r (fun m => { m with bridge := { b with locked := false, fade := if b.audible then 2 else 0 } }) d
  when (b.audible && b.fade ≠ 2) (bridgeMuted r e) d

/-- Receiver loss as its media side sees it (R131, R458): the next frame fades out, then the channels mute. -/
def ainMute (r : Nat) (e : Env) (d : Device) : Device :=
  bridgeLoss r e (modAinMed r (fun m => { m with buf := { m.buf with fade := if m.buf.audible then 2 else 0 } }) d)

/-- RATIO_LOCK (R130, R131): a locked receiver in BRIDGE mode becomes audible, its first frame faded in. -/
def ratioLock (r : Nat) (e : Env) (d : Device) : Device :=
  let m := ainMedAt d r
  if (ainAt d r).st = .locked && !m.slip && !m.bridge.locked && !m.bridge.audible then
    let d := modAinMed r (fun m => { m with bridge := { locked := true, fade := 1, audible := true },
                                            bridgeLock := inc32 m.bridgeLock }) d
    raise 0x100B (0x08 + r) [1] e d
  else d

/-- Receiver lock as its slip buffer sees it (R132, R458). -/
def slipLock (r : Nat) (e : Env) (d : Device) : Device :=
  when (ainMedAt d r).slip (slipEnter r e) d

/-! ## Owners of local sources (R134, R135) -/

/-- The device is hub A of its pair (PAIR_ID 1) or hub B (PAIR_ID 2); hub A where there is no pair (R243). -/
def isHubB (d : Device) : Bool := (cfg d).pairId = 2

/-- Local sources: AES3 and BS source IDs. -/
def localSrcs : List Nat := (List.range 16).map (0x2000 + ·) ++ (List.range 40).map (0x3000 + ·)

/-- A route's destination takes a source in the frame that is sealed: its source, or the old one of its crossfade (R137). -/
def routeTakes (src : Nat) (r : RouteState) : Bool :=
  r.live.src = src || (fadeNow r).any (fun f => f.oldSrc = src)

/-- A local source is routed to some object or bus of the frame that is sealed. -/
def srcRouted (d : Device) (src : Nat) : Bool :=
  d.geo.objs.any (fun p => routeTakes src p.2.route) || d.chn.outs.any (fun p => routeTakes src p.2.route)

/-- The same, or of the frame after it: its owner sends the sealed frame for that one (R134). -/
def srcSent (d : Device) (src : Nat) : Bool :=
  srcRouted d src || d.geo.objs.any (fun p => p.2.route.app.src = src)
    || d.chn.outs.any (fun p => p.2.route.app.src = src)

/-- This hub owns a source (SRC_OWNER, R134), by the commands applied so far. -/
def ownsSrc (d : Device) (src : Nat) : Bool := (mget false d.inp.ownerB src) = isHubB d

/-- This hub owns a source for the frame just sealed. -/
def ownsSealed (d : Device) (src : Nat) : Bool := (mget false d.inp.ownerLive src) = isHubB d

/-- In a pair every routed local source runs one frame late, from its owner's frame (R134); where the owner's frame
has not arrived the own frame stands in and the frame is not comparable (R135). `k` is the frame sealed. -/
def sealOwned (k : BitVec 32) (d : Device) : Device :=
  if !paired d || d.pwr.spoke then d else
  let sealed := d.inp.sources
  let d := forAll (localSrcs.filter (srcRouted d)) (fun s d =>
    let prev := mget (silence (nSmp d)) d.inp.localPrev s
    let got := (d.inp.ownerFrames.find? (fun f => f.1 = s && f.2.1 = k - 1)).map (fun f => f.2.2)
    let late := !ownsSealed d s && got.isNone
    let use := if ownsSealed d s then prev else got.getD prev
    { d with inp := { d.inp with
        sources := mset [] d.inp.sources s use
        nc := if late && !d.inp.nc.contains k then d.inp.nc ++ [k] else d.inp.nc } }) d
  { d with inp := { d.inp with
      localPrev := msets [] [] (localSrcs.map (fun s => (s, mget [] sealed s)))
      ownerFrames := d.inp.ownerFrames.filter (fun f => !earlier f.2.1 (k - 1)) } }

/-! ## Direct paths (R144 to R146) -/

def dpHpHz : List Nat := [0, 20, 30, 40, 60, 80, 120]

/-- The limiter threshold of a path: lowered by the protection of a power channel that is its sink (R215). -/
def dpThr (d : Device) (c : DpCfg) : F36 :=
  if d.pwr.spoke && c.sink / 0x1000 = 2 then
    let p := pchAt d (c.sink % 0x1000)
    fmin (fmin c.thr p.protPk) (fsqrt p.protMs)
  else c.thr

/-- One frame through a direct path with parameters `c` after gain `g0`: gain ramp, high-pass, limiter (R144, R145).
(log 47: DEDUCED, safe.) -/
def dpFrame (d : Device) (p : DirectPath) (c : DpCfg) (g0 : F36) (x : List F36) : DirectPath :=
  let n := nSmp d
  let y := x.zipIdx.map (fun q => fmul q.1 (xpGain n false g0 c.gain q.2))
  let (y, hp) := if c.hp = 0 then (y, ({} : BiqSt)) else biqFrame (butterHp (nth 20 dpHpHz c.hp) (fsHz d)) p.hp y
  let rel := c.rel.getD (dpRelDefault (fsHz d))
  let (y, g) := y.foldl (fun a v => let r := dpLimStep rel (dpThr d c) a.2 v; (a.1 ++ [r.1], r.2)) (([], p.g) : List F36 × F36)
  { p with hp := hp, g := g, out := y, prevOut := p.out }

/-- What the path has sent to its sink in the frame just sealed: its stream 8 samples late (R144): at 96 kHz the second half of
the frame before and the first half of this one, at 48 kHz the frame before. (log 47: DEDUCED, safe.) -/
def dpEmit (d : Device) (p : DirectPath) : List F36 :=
  let n := nSmp d
  let s := (silence n ++ p.prevOut).drop p.prevOut.length ++ p.out
  (s.drop (n - 8)).take n

/-- A path that ran, or runs, in the frame just sealed (R146): in the frame of its AF an enabled path fades in, a disabled
one out. -/
def dpRuns (p : DirectPath) : Bool := p.live.en || p.prev.en

/-- One path for the sealed frame. In the frame before the AF of its enable, the 8 samples that its sink sends first from that
AF on go through its steps. (log 47: DEDUCED, safe.) -/
def runPath (d : Device) (p : DirectPath) : DirectPath :=
  let n := nSmp d
  if p.live.en then
    dpFrame d p p.live (if p.prev.en then p.prev.gain else p.live.gain) (sourceFrame d p.live.src)
  else if p.prev.en then dpFrame d p p.prev p.prev.gain (sourceFrame d p.prev.src)
  else if p.app.en then
    let q := dpFrame d { p with hp := {}, g := fOne } p.app p.app.gain ((sourceFrame d p.app.src).drop (n - 8))
    { q with out := silence (n - 8) ++ q.out, prevOut := [] }
  else { p with hp := {}, g := fOne, out := [], prevOut := [] }

/-- All direct paths, for the sealed sources of a frame. (log 47: DEDUCED, safe.) -/
def runPaths (d : Device) : Device :=
  { d with inp := { d.inp with dp := mmap {} (fun _ p => runPath d p) d.inp.dp } }

/-- The path that owns a sink in the frame just sealed, with the parameters that name it. -/
def pathInto (d : Device) (sink : Nat) : Option DirectPath :=
  (d.inp.dp.find? (fun p => dpRuns p.2 && (if p.2.live.en then p.2.live.sink else p.2.prev.sink) = sink)).map (·.2)

/-- What a sink has sent in the frame just sealed, `framed` being its framed output of that frame (R146): the path's samples, with a
fade between the two over the frame in which the path was enabled or disabled. -/
def pathSent (d : Device) (p : DirectPath) (framed : List F36) : List F36 :=
  let n := nSmp d
  let path := dpEmit d p
  if p.live.en && p.prev.en then path
  else if p.live.en then scarfFrame n framed path
  else scarfFrame n path framed

/-- Latch what the sealed frame uses of the input parameters: commands up to its own number (R27). -/
def latchInputs (d : Device) : Device :=
  { d with inp := { d.inp with
      rxPrev := d.inp.rxLive, rxLive := d.inp.rx,
      wfsPrev := d.inp.wfsLive, wfsLive := d.inp.wfsApp,
      ain := mmap {} (fun _ (m : AinMedia) => { m with slipLive := m.slipApp }) d.inp.ain
      ownerLive := d.inp.ownerB
      dp := mmap {} (fun _ p => { p with prev := p.live, live := p.app }) d.inp.dp } }

/-- Action 4 of R21 for audio: every source sealed for frame `k`. (log 48: DEDUCED, unsafe.) -/
def sealSources (k : BitVec 32) (e : Env) (d : Device) : Device :=
  let d := { d with inp := { d.inp with sources := [] } }
  let d := sealStreams k e d
  let nets := (rxMaps d.inp.rxLive ++ rxMaps d.inp.rxPrev).filter (fun m => m.key < 65536)
  let d := forAll nets (fun m d =>
    { d with inp := { d.inp with sources := mset [] d.inp.sources m.key (chanAt d m.key).frame } }) d
  let d := sealHubSources k e d
  let d := forAll (List.range 16) (fun h d => sealHostRing k h e d) d
  let d := forAll (List.range 8) (fun r d => sealAes r e d) d
  let d := forAll (List.range 40) (fun c d =>
    { d with inp := { d.inp with sources := mset [] d.inp.sources (0x3000 + c) (decAt d c).out } }) d
  sealOwned k (runPaths d)

/-! ## Commands of the environment -/

/-- STREAM_REVIVE: return of a MUTED channel to LIVE (R125). `source` is a source ID, with 65,536 × hub added for a
hub's channel; a host ring's channel has its own limits. -/
def reviveSource (source : Nat) (d : Device) : Device :=
  let n := nSmp d
  if source / 4096 = 4 then
    let h := source % 4096 / 64
    let c := source % 64
    let a := mget {} d.ring.ain h
    let q := reviveChan n (ringRevive (ringAt d (16 + h))) (mget {} a.chans c)
    if q = mget {} a.chans c then d else
    { d with ring := { d.ring with ain := mset {} d.ring.ain h { a with chans := mset {} a.chans c q } },
             inp := { d.inp with sources := mset [] d.inp.sources source q.frame } }
  else
    match (rxMaps d.inp.rxLive).find? (fun m => m.key = source) with
    | none => d
    | some m =>
      let q := reviveChan n (mget {} d.inp.rxLive m.slot).revive (chanAt d source)
      if q = chanAt d source then d else
      let d := setChan source q d
      let hub := source / 65536
      if hub = 0 || mget 0 d.pair.supplier (source % 65536) = hub then
        { d with inp := { d.inp with sources := mset [] d.inp.sources (source % 65536) q.frame } }
      else d

def execStreamRevive (source : Nat) (s : State) : Host.Outcome State Fault Refusal :=
  act (fun _ d => reviveSource source d) s

/-- RATIO_LOCK: rate bridge ratio lock (R130). -/
def execRatioLock (rx : Nat) (s : State) : Host.Outcome State Fault Refusal :=
  act (fun e d => when (rx < 8) (ratioLock rx e) d) s

/-- OWNER_FRAME_MISSING (R135): the owner's frame k has not arrived by tick k + 2: the other hub uses its own frame and
marks frame k + 1 = FN − 1 as not comparable. -/
def execOwnerFrameMissing (source : Nat) (s : State) : Host.Outcome State Fault Refusal :=
  act (fun e d =>
    if !paired d || d.pwr.spoke || ownsSealed d source || !localSrcs.contains source || !srcRouted d source
      || d.inp.ownerFrames.any (fun f => f.1 = source && f.2.1 = e.fn - 2) then d
    else { d with inp := { d.inp with nc := if d.inp.nc.contains (e.fn - 1) then d.inp.nc
                                            else d.inp.nc ++ [e.fn - 1] } }) s

end Sys2Proof.Machine
end

