-- ==== Sys2Proof/Machine/Aes.lean ====
section
/-! DEFINITION. AES3 ports (chapter 16): frame reception, channel status and user blocks, lock and loss, transmitters
with their sample buffers, commits, block starts and resets. -/
namespace Sys2Proof.Machine

/-! ## Channel status (R459) -/

/-- One bit of the CRCC of AES3: x^8 + x^4 + x^3 + x^2 + 1, least significant bit first. -/
def crccBit (c : BitVec 8) (b : Bool) : BitVec 8 :=
  let c' := c >>> 1
  if c.getLsbD 0 != b then c' ^^^ 0xB8#8 else c'

/-- The CRCC over bytes, preset to all ones (R459). -/
def crcc (l : List Byte) : Byte :=
  l.foldl (fun c x => (List.range 8).foldl (fun c i => crccBit c (x.getLsbD i)) c) 0xFF#8

/-- The block passes its check (R459): 0 AUTO, 1 ALWAYS, 2 NEVER. -/
def csPasses (check : Nat) (b : List Byte) : Bool :=
  let good := crcc (b.take 23) = nth 0 b 23
  if check = 2 then true
  else if check = 1 then good
  else !(nth 0 b 0).getLsbD 0 || good

/-- Bytes of a block of 192 bits, each byte least significant bit first. -/
def blockBytes (bits : List Bool) : List Byte :=
  (List.range 24).map (fun i => BitVec.ofNat 8 (ofBits ((bits.drop (8 * i)).take 8)))

/-- The channel-status block as it goes out (R463): a professional block carries its CRCC in byte 23. -/
def csWire (b : List Byte) : List Byte := if (nth 0 b 0).getLsbD 0 then b.take 23 ++ [crcc (b.take 23)] else b

/-! ## Reception -/

/-- NA_MUTE (R460): whether the subframe shall be muted, with the fade of the next seal where that changes. -/
def naSet (want : Bool) (s : AinSub) : AinSub :=
  if want = s.naMuted then s else { s with naMuted := want, naFade := if want then 2 else 1 }

/-- A block of the subframe is complete (R459, R460): the check, the registers, the reports. -/
def csBlock (r i : Nat) (check : Nat) (na : Bool) (e : Env) (s : AinSub) (d : Device) : AinSub × Device :=
  let b := blockBytes s.cBits
  let s := { s with u := blockBytes s.uBits, cBits := [], uBits := [] }
  if csPasses check b then
    let changed := s.accepted && b.take 23 ≠ s.cs.take 23
    let s := naSet (na && (nth 0 b 0).getLsbD 1) { s with cs := b, csFn := s.zFn, accepted := true }
    (s, when changed (raiseLim (2 * r + i) 0x1015 (0x08 + r) [BitVec.ofNat 8 i] e) d)
  else
    let d := modAin r (fun p => { p with crccErr := inc32 p.crccErr }) d
    (s, raiseLim (2 * r + i) 0x201D (0x08 + r) ([BitVec.ofNat 8 i, 0] ++ leBytes 4 (ainAt d r).crccErr) e d)

/-- One subframe into its block and its counters; answers the sample it delivers (R456, R460). -/
def subRx (z : Bool) (fn : BitVec 32) (inBlock : Bool) (f : SubFrame) (s : AinSub) : AinSub × Int :=
  let v := if f.parityOk then f.sample else s.last
  let s := if z then { s with cBits := [], uBits := [], zFn := fn } else s
  let s := if inBlock then { s with cBits := s.cBits ++ [f.c], uBits := s.uBits ++ [f.u] } else s
  ({ s with last := v, v1 := if f.v then inc32 s.v1 else s.v1 }, v)

/-- Parameters take effect at a block start (R461); AIN_EN clear makes the receiver IDLE, its sources mute. -/
def ainBlockStart (r : Nat) (e : Env) (d : Device) : Device :=
  let p := ainAt d r
  let d := setAin r { p with enNow := p.en, checkNow := p.check, naNow := p.naMute, parityRun := 0,
                              st := if !p.en then .idle else if p.st = .idle then .acquire else p.st,
                              sub0 := if p.naMute then p.sub0 else naSet false p.sub0,
                              sub1 := if p.naMute then p.sub1 else naSet false p.sub1 } d
  when (!p.en && p.st = .locked) (ainMute r e) d

/-- A loss of AIN0 while it is the media PLL's reference is the reference's loss (R449, R457). -/
def refOfAin (r : Nat) (e : Env) (d : Device) : Device := if r = 0 ∧ d.clk.ref = 2 then refLost 4 e d else d

/-- A locked receiver loses its signal (R457, R458): it returns to ACQUIRE. -/
def ainLost (r cause : Nat) (e : Env) (d : Device) : Device :=
  let p := ainAt d r
  if p.st ≠ .locked then d else
  let d := setAin r { p with st := .acquire, losses := inc32 p.losses, frames := 0 } d
  refOfAin r e (ainMute r e (raiseLim r 0x201C (0x08 + r) (leBytes 1 cause) e d))

/-- A Z preamble stands inside a block (R457). -/
def strayZ (z : Bool) (p : AinPort) : Bool := z && p.st = .locked && p.frames ≠ 0

/-- An AES3 frame of receiver `r` (R456 to R460): a Z inside a block is a glitch, and the fourth parity failure of a block loses
the signal (R457). -/
def aesFrame (r : Nat) (z : Bool) (f1 f2 : SubFrame) (e : Env) (d : Device) : Device :=
  if strayZ z (ainAt d r) then ainLost r 2 e d else
  let d := when z (ainBlockStart r e) d
  let p := ainAt d r
  if p.st ≠ .locked then d else
  let bad := (if f1.parityOk then 0 else 1) + (if f2.parityOk then 0 else 1)
  let frames := if z then 1 else if p.frames = 0 then 0 else p.frames + 1
  let inB := decide (0 < frames) && decide (frames ≤ 192)
  let (a, v1) := subRx z e.fn inB f1 p.sub0
  let (b, v2) := subRx z e.fn inB f2 p.sub1
  let d := setAin r { p with parityErr := add32 p.parityErr bad, parityRun := p.parityRun + bad,
                              frames := if frames ≥ 192 then 0 else frames } d
  let (a, d) := if frames = 192 then csBlock r 0 p.checkNow p.naNow e a d else (a, d)
  let (b, d) := if frames = 192 then csBlock r 1 p.checkNow p.naNow e b d else (b, d)
  let d := modAin r (fun p => { p with sub0 := a, sub1 := b }) d
  if p.parityRun + bad ≥ 4 then ainLost r 4 e d else
  when ((ainMedAt d r).slip && (ainMedAt d r).buf.audible) (modAinMed r (fun m =>
    let cap := nSmp d + 32
    let full := decide (m.buf.s0.length ≥ cap)
    let put := fun (l : List Int) v => if full then l.drop 1 ++ [v] else l ++ [v]
    { m with slips := if full then inc32 m.slips else m.slips
             buf := { m.buf with s0 := put m.buf.s0 v1, s1 := put m.buf.s1 v2 } })) d

/-- AIN_LOCK (R457): a receiver in ACQUIRE locks to a rate of R470. -/
def ainLock (r rate : Nat) (e : Env) (d : Device) : Device :=
  let p := ainAt d r
  if p.st ≠ .acquire || rate > 6 then d else
  let d := setAin r { p with st := .locked, rate := rate, parityRun := 0, frames := 0 } d
  slipLock r e (raise 0x1014 (0x08 + r) (leBytes 1 rate) e d)

/-- Function reset of a receiver (R458): back to ACQUIRE with the fade, parameters and counters kept. -/
def ainReset (r : Nat) (e : Env) (d : Device) : Device :=
  let p := ainAt d r
  if p.st = .idle then d else
  ainMute r e (setAin r { p with st := .acquire, frames := 0 } d)

/-! ## Transmitters (R462 to R467) -/

/-- The output that a sink assignment list gives a sink. -/
def sinkOut (l : List SinkAsg) (kind sink chan : Nat) : Option Nat :=
  (l.find? (fun a => a.kind = kind && a.sink = sink && a.chan = chan)).map (·.out)

/-- PCM of a frame of F36 values by the requantiser of output `n` for the frame `k` that is launched, which rendered with
the configuration before the latest latch (R171). -/
def requantFrame (d : Device) (k : BitVec 32) (n : Nat) (x : List F36) : List Int :=
  (block9 d k n (outAt d n).prev x).map (·.1)

/-- The frame that an output launches: silence where nothing renders (R44). -/
def launched8 (d : Device) (n : Nat) : List F36 :=
  let x := (outAt d n).emit8
  if x.isEmpty then silence (nSmp d) else x
def launchedPcm (d : Device) (n : Nat) : List Int :=
  let x := (outAt d n).emitPcm
  if x.isEmpty then List.replicate (nSmp d) 0 else x

/-- The framed content of subframe sink `sk` for output frame `k` (R462, R466). -/
def aoutFrame (d : Device) (k : BitVec 32) (sk : Nat) : List Int :=
  let n := nSmp d
  let cur := sinkOut d.chn.sinks2 1 sk 0
  let old := sinkOut d.chn.sinks3 1 sk 0
  match old, cur with
  | none, none => List.replicate n 0
  | none, some b => requantFrame d k b (fadeInFrame n (launched8 d b))
  | some a, none => requantFrame d k a (fadeOutFrame n (launched8 d a))
  | some a, some b =>
    if a = b then launchedPcm d b
    else requantFrame d k b (scarfFrame n (launched8 d a) (launched8 d b))

/-- Round-only conversion of a direct path's samples to 24-bit PCM (R7, R171). -/
def pathPcm (l : List F36) : List Int := l.map (fun v => (toPcm v).1)

/-- A frame as a function reset lets it go out (R467): plain, faded out, as zero samples, faded in. -/
def aoutShape (n mode : Nat) (l : List Int) : List Int :=
  match mode with
  | 1 => pathPcm (fadeOutFrame n (l.map ofPcm))
  | 2 => List.replicate n 0
  | 3 => pathPcm (fadeInFrame n (l.map ofPcm))
  | _ => l

/-- What subframe sink `sk` has sent in the frame that ends: the samples of its buffer, or those of the direct path that owns it
(R144, R146), as a function reset lets them go out (R467). -/
def aoutSent (d : Device) (mode sk : Nat) (framed : List Int) : List Int :=
  let n := nSmp d
  aoutShape n mode (match pathInto d (0x1000 + sk) with
    | none => framed
    | some p => pathPcm (pathSent d p ((framed ++ List.replicate (n - framed.length) 0).map ofPcm)))

/-- Write one subframe's buffer at a launch: `sent` is what it has sent of its first N samples, N are written, at most N
were left. -/
def subLaunch (n : Nat) (sent l : List Int) (s : AoutSub) : AoutSub × Nat :=
  let b := s.buf.drop n
  let excess := b.length - n
  ({ s with buf := b.drop excess ++ l, sent := sent, last := sent.getLast?.getD s.last }, excess)

/-- Launch of output frame `k` to transmitter `t` (R462, R465, R467). A frame whose first sample has GX mod 192 = 0
starts a block: a reset's silence ends with it. (log 112: DEDUCED, unsafe.) -/
def aoutLaunch (k : BitVec 32) (t : Nat) (e : Env) (d : Device) : Device :=
  let n := nSmp d
  let block := decide ((e.fnx - 2).toNat * n % 192 = 0)
  let p := aoutAt d t
  if !p.en then setAout t { p with s0 := { p.s0 with buf := [] }, s1 := { p.s1 with buf := [] } } d else
  let c0 := aoutFrame d k (2 * t)
  let c1 := aoutFrame d k (2 * t + 1)
  let out := p.reset = 1 && k = p.resetAt
  let (s0, o0) := subLaunch n (aoutSent d p.mode (2 * t) (p.s0.buf.take n)) c0 p.s0
  let (s1, _) := subLaunch n (aoutSent d p.mode (2 * t + 1) (p.s1.buf.take n)) c1 p.s1
  setAout t { p with s0 := { s0 with vOut := s0.vTx }, s1 := { s1 with vOut := s1.vTx }, overrun := add32 p.overrun o0,
                     mode := if out then 1 else if p.reset = 2 then (if block then 3 else 2) else 0,
                     reset := if out then 2 else if p.reset = 2 && block then 3 else if p.reset = 3 then 0
                       else p.reset } d

/-- AOUT_BLOCK_START (R463 to R465): pending commits are taken, the blocks to send follow from the live ones, a cut block is
counted. (log 43: DEDUCED, unsafe.) -/
def aoutBlock (t : Nat) (d : Device) : Device :=
  let p := aoutAt d t
  let take : AoutSub → AoutSub := fun s => { s with
    csLive := if s.csCommit then s.csStg else s.csLive, csCommit := false,
    uLive := if s.uCommit then s.uStg else s.uLive, uCommit := false }
  let a := take p.s0
  let b := take p.s1
  let send : AoutSub → List Byte → AoutSub := fun s cs => { s with csOut := csWire cs, uOut := s.uLive }
  setAout t { p with s0 := send a a.csLive, s1 := send b (if p.csSame then a.csLive else b.csLive), cut := false,
                     blockCut := if p.cut then inc32 p.blockCut else p.blockCut } d

/-- TX_UNDERRUN (R465): a frame that finds its buffer empty sends the last sample again.
(log 112: DEDUCED, unsafe.) -/
def aoutUnderrun (t : Nat) (e : Env) (d : Device) : Device :=
  let p := aoutAt d t
  if !p.en || d.pwr.quiet then d else
  let dry : AoutSub → AoutSub := fun s => { s with last := (aoutShape s.buf.length p.mode s.buf).getLast?.getD s.last, buf := [] }
  let d := setAout t { p with s0 := dry p.s0, s1 := dry p.s1, underrun := inc32 p.underrun } d
  raiseLim t 0x201E (0x10 + t) (leBytes 4 (aoutAt d t).underrun) e d

/-- A block start of a transmitter that sends: a reset whose silence ended completes (R467). In the quiet state the output is
low (R487). -/
def aoutBlockStart (t : Nat) (e : Env) (d : Device) : Device :=
  let p := aoutAt d t
  if !p.en || d.pwr.quiet then d
  else
    let d := aoutBlock t d
    match p.reset, p.resetRidx with
    | 0, some uid | 3, some uid => finishUid uid 0 [] e (modAout t (fun p => { p with resetRidx := none }) d)
    | _, _ => d

/-- A transmitter that does not send has no block start: its reset completes at the launch.
(log 112: DEDUCED, unsafe.) -/
def aoutResetOff (t : Nat) (e : Env) (d : Device) : Device :=
  let p := aoutAt d t
  match p.en, p.resetRidx with
  | false, some uid => finishUid uid 0 [] e (setAout t { p with resetRidx := none, reset := 0 } d)
  | _, _ => d

/-! ## Commands -/

/-- AOUT_BLOCK_START (R463, R467). -/
def execAoutBlockStart (tx : Nat) (s : State) : Host.Outcome State Fault Refusal :=
  act (fun e d => when (tx < 8) (aoutBlockStart tx e) d) s

/-- AES3_FRAME_RX: reception of an AES3 frame (R456). -/
def execAes3FrameRx (rx : Nat) (z : Bool) (s1 s2 : SubFrame) (s : State) : Host.Outcome State Fault Refusal :=
  act (fun e d => when (rx < 8) (aesFrame rx z s1 s2 e) d) s

def execAinLock (rx rate : Nat) (s : State) : Host.Outcome State Fault Refusal :=
  act (fun e d => when (rx < 8) (ainLock rx rate e) d) s

def execAinLost (rx cause : Nat) (s : State) : Host.Outcome State Fault Refusal :=
  act (fun e d => when (rx < 8 && 1 ≤ cause && cause ≤ 4) (ainLost rx cause e) d) s

/-- TX_UNDERRUN: a transmitter frame finds its sample buffer empty (R465). -/
def execTxUnderrun (tx : Nat) (s : State) : Host.Outcome State Fault Refusal :=
  act (fun e d => when (tx < 8) (aoutUnderrun tx e) d) s

/-- Request of a channel-status block commit of a subframe (R463). -/
def csCommit (tx sub : Nat) (d : Device) : Device :=
  modAout tx (fun p =>
    if sub = 0 then { p with s0 := { p.s0 with csCommit := true } }
    else { p with s1 := { p.s1 with csCommit := true } }) d

/-- Request of a user-bit block commit of a subframe (R464). -/
def uCommit (tx sub : Nat) (d : Device) : Device :=
  modAout tx (fun p =>
    if sub = 0 then { p with s0 := { p.s0 with uCommit := true } }
    else { p with s1 := { p.s1 with uCommit := true } }) d

def execCsCommit (tx sub : Nat) (s : State) : Host.Outcome State Fault Refusal :=
  hostAct (fun _ d => when (tx < 8 && sub < 2) (csCommit tx sub) d) s

def execUCommit (tx sub : Nat) (s : State) : Host.Outcome State Fault Refusal :=
  hostAct (fun _ d => when (tx < 8 && sub < 2) (uCommit tx sub) d) s

end Sys2Proof.Machine
end

