-- ==== Sys2Proof/Machine/RingOps.lean ====
section
/-! DEFINITION. Operations that every host ring shares (R253 to R257, R261, R272, R12): where an entry lies, how many
are covered, what the device does when it moves its index. -/
namespace Sys2Proof.Machine

/-- Address of entry `j` of a ring (R254). -/
def posAddr (r : Ring) (j : BitVec 32) : Nat := r.base + 64 * (j.toNat % r.size)

/-- Entries of a class H or P ring that the latest fetched HIDX covers (R254). -/
def covered (r : Ring) : Nat := (r.hidx - r.didx).toNat

/-- Entries of a class D ring that the device may write (R268). -/
def roomOf (r : Ring) : Nat := r.size - (r.didx - r.hidx).toNat

/-- The ring runs: started, not in FAULT, the ring engine running, DMA possible (R252, R257, R262, R487,
R507). -/
def ringLive (d : Device) (r : Nat) : Bool :=
  d.ring.go && !d.pwr.quiet && d.ring.busMaster && !d.ring.d3hot && (ringAt d r).run && !(ringAt d r).fault

/-- Descriptor `j` of a ring, none where its read fails. -/
def readEntry (e : Env) (d : Device) (r : Nat) (j : BitVec 32) : Option (List Byte) :=
  dmaRead e d (posAddr (ringAt d r) j) 64

/-- The device moves its index past `n` entries: they count as unsignalled (R272), the index waits for its write-back
(R261). -/
def moveRing (r n : Nat) (urgent : Bool) (d : Device) : Device :=
  if n = 0 then d
  else modRing r (fun q => { q with didx := q.didx + BitVec.ofNat 32 n, dirty := true, unsig := q.unsig + n,
                                    urgent := q.urgent || urgent }) d

/-- An entry consumed without use is counted (R12, R274, R277). (log 83: DEDUCED, unsafe.) -/
def countBad (r n : Nat) (d : Device) : Device := modRing r (fun q => { q with bufBad := add32 q.bufBad n }) d

/-- A DMA address is aligned to 64 bytes (R12). -/
def aligned64 (a : Nat) : Bool := a % 64 = 0

/-! ## Trace descriptors (R271, R317, R319) -/

/-- A trace record (R317). -/
def traceBytes (r : TraceRec) : List Byte :=
  leBytes 1 r.typ ++ leBytes 1 r.core ++ leBytes 2 r.task ++ leBytes 4 r.fn.toNat ++ leBytes 4 r.cyc ++ leBytes 2 r.arg
    ++ leBytes 1 r.depth ++ leBytes 1 r.rseq

/-- A trace descriptor (R271, R319): up to four records leave the on-chip buffer. -/
def traceWrite (d : Device) : Device :=
  let t := d.disp.trace
  let r := ringAt d 3
  if t.buf.isEmpty || !ringLive d 3 || roomOf r = 0 then d
  else
    let d := { d with disp := { d.disp with trace := { t with buf := t.buf.drop 4 } } }
    moveRing 3 1 false (post (posAddr r r.didx) (sub ((t.buf.take 4).flatMap traceBytes) 0 64) d)

/-- FLUSH (R319): what is buffered goes out at once, as far as the ring has room, the last descriptor partly filled. -/
def traceFlush (d : Device) : Device := foldN (d.disp.trace.buf.length / 4 + 1) (fun d _ => traceWrite d) d

end Sys2Proof.Machine
end

