-- ==== Sys2Proof/Machine/Budget.lean ====
section
/-! DEFINITION. The budget check (R33 to R39): the task table (R298, R299), the assignment of flows to cores (R308), the
schedule of R309, and the path, core, DRAM and geometry conditions with their margins. -/
namespace Sys2Proof.Machine

/-- Ceiling of a quotient. -/
def cdiv (a b : Nat) : Nat := (a + b - 1) / b

/-- Samples per frame of an image. -/
def imgN (i : Image) : Nat := if i.fs96 then 16 else 8

/-- Static values of output `n`. -/
def outStat (i : Image) (n : Nat) : OutStatic := nth {} i.outs n

/-- The used partition groups of output `n` (R156). -/
def outGroups (i : Image) (n : Nat) : List ConvGroup := convGroups (outStat i n).convMax i.cveLong

/-- The laws that object `o` may use (R480): bits as in speaker LAWS. -/
def objLaws (i : Image) (o : Nat) : Nat := (nth 0 i.objLaws o).toNat

/-- Object `o` may use WFS (bit 1), VBAP (bit 2), DIRECT (bit 4). -/
def mayWfs (i : Image) (o : Nat) : Bool := bit (objLaws i o) 1
def mayVbap (i : Image) (o : Nat) : Bool := bit (objLaws i o) 2
def mayDirect (i : Image) (o : Nat) : Bool := bit (objLaws i o) 4

/-! ## Costs (R58, R143, R175, R176, R217) -/

/-- c_obj (R143). -/
def cObj (i : Image) (o : Nat) : Nat := 96 + (if mayWfs i o then 96 else 0) + (if i.objBulkEn then 40 else 0)

/-- c_bus (R143). -/
def cBus (busAlign : Bool) : Nat := if busAlign then 64 else 40

/-- c_fix of a chain (R175): overhead, input, convolution hand-off, dither. -/
def cFix (i : Image) (n : Nat) : Nat :=
  80 + (32 + 2 * imgN i) + (if (outStat i n).convMax > 0 then 48 else 0) + (16 + 3 * imgN i)

/-- c_sw of a chain (R175): biquads, crossover, bulk delay, limiter, DC high-pass. -/
def cSw (i : Image) (n : Nat) : Nat :=
  let s := imgN i
  let o := outStat i n
  (o.biqMax + o.xoMax) * (8 + 4 * s) + (if i.outBulkEn then 40 + 2 * s else 0) + (24 + 8 * s) + (8 + 4 * s)

/-- FRONT (R298): overhead, input, biquads, crossover, hand-off, and c_bus. -/
def frontCost (i : Image) (n : Nat) (busAlign : Bool) : Nat :=
  let s := imgN i
  let o := outStat i n
  80 + (32 + 2 * s) + (o.biqMax + o.xoMax) * (8 + 4 * s) + (if o.convMax > 0 then 48 else 0) + cBus busAlign

/-- BACK (R298): the remaining terms of R175. -/
def backCost (i : Image) : Nat :=
  let s := imgN i
  (if i.outBulkEn then 40 + 2 * s else 0) + (24 + 8 * s) + (8 + 4 * s) + (16 + 3 * s)

/-- t_cve (R176). -/
def tCve (i : Image) (n : Nat) : Nat :=
  let o := outStat i n
  if o.convMax = 0 then 0
  else 40 + cdiv (2 * imgN i * (2 * min o.convMax 64 + 2 * (outGroups i n).length)) 256

/-- cve(n), CVE cycles of a convolving output per frame (R159). -/
def cveLoad (i : Image) (n : Nat) : Nat :=
  let o := outStat i n
  if o.convMax = 0 then 0
  else
    let g := outGroups i n
    cdiv (imgN i * (2 * min o.convMax 64 + 2 * g.length
      + (g.map (fun q => 20 * (q.k + 1) + 8 * q.u)).sum)) 256

/-- L_CVE (R159). -/
def cveTotal (i : Image) : Nat := ((List.range i.nOut).map (cveLoad i)).sum

/-- W_CVE of an FIR load (R164). -/
def firWork (i : Image) (n : Nat) : Nat :=
  let g := outGroups i n
  cdiv ((g.map (fun q => q.u * (10 * q.s * (q.k + 1)))).sum
    + (g.map (fun q => 2 * (8 * q.u * (q.s + 1) + 10 * q.s * (q.k + 1)))).sum) 256

/-- SP, bytes of the spectra of an FIR load (R164). -/
def firSpectra (i : Image) (n : Nat) : Nat := 9 * ((outGroups i n).map (fun q => q.u * (q.s + 1))).sum

/-- Frames of staging that R164 guarantees a load of `a` bytes for, beyond t + 3, with CVE work `vq` before it. -/
def firFrames (i : Image) (n a vq : Nat) : Nat :=
  cdiv a 1048576 + cdiv (vq + firWork i n) (180000 - 2 * cveTotal i) + cdiv (firSpectra i n) (2 * i.coefBw)

/-! ## The task table (R298, R299) -/

/-- Operand selectors (R302). -/
def selTick : Nat := 0x1000
def selXsum (n : Nat) : Nat := 0x2000 + n
def selCve (n : Nat) : Nat := 0x3000 + n
def selTask (id : Nat) : Nat := 0x4000 + id
def selBulk (o : Nat) : Nat := 0x5000 + o
def selRecord (o : Nat) : Nat := 0x6000 + o
def selSense (c : Nat) : Nat := 0x7000 + c

/-- Subframes of the receivers that may use BRIDGE mode (R481). -/
def bridgeSubs (i : Image) : List Nat := (List.range 16).filter (fun s => i.bridgeMask.getLsbD (s / 2))

/-- The power channels that the image configures (R179): PCH_OUT names an output. -/
def powerChans (i : Image) (spoke : Bool) : List Nat :=
  if spoke then (List.range 16).filter (fun c => decide (nth 0xFFFF i.pchOut c < i.nOut)) else []

/-- The task table of an image. -/
def buildTable (i : Image) (spoke : Bool) (busAlign : Nat → Bool) : List TaskEntry :=
  let chains : List TaskEntry := (List.range i.nOut).flatMap (fun n =>
    let o := outStat i n
    [{ kind := .front n, flow := 2 * n, pos := 0, cost := frontCost i n (busAlign n)
       state := 96 + 6 * (o.biqMax + o.xoMax), ops := [selTick, selXsum n] },
     { kind := .back n, flow := 2 * n, pos := 1, cost := backCost i
       ops := selTask (2 * n) :: (if o.convMax > 0 then [selCve n] else []) }])
  let b := 2 * i.nOut
  let ing : List TaskEntry := (List.range i.nObj).map (fun o =>
    { kind := .ing o, flow := b + o, pos := 0, cost := cObj i o, state := if mayWfs i o then 40 else 24
      ops := selTick :: (if i.objBulkEn then [selBulk o] else []) })
  let b := b + i.nObj
  let md : List TaskEntry := (List.range i.nObj).map (fun o =>
    { kind := .md o, flow := b + o, pos := 0, cost := if spoke then 96 else 120, state := 8, ops := [selRecord o] })
  let b := b + i.nObj
  let subs := bridgeSubs i
  let br : List TaskEntry := subs.zipIdx.map (fun p =>
    { kind := .br p.1, flow := b + p.2, pos := 0, cost := 640, state := 256, ops := [selTick] })
  let b := b + subs.length
  let chs := powerChans i spoke
  let pr : List TaskEntry := chs.zipIdx.map (fun p =>
    { kind := .pr p.1, flow := b + p.2, pos := 0, cost := 120 + 12 * imgN i, state := 64
      ops := [selTick, selSense p.1] })
  let b := b + chs.length
  let tl : TaskEntry := { kind := .tl, flow := b, pos := 0, cost := 2000, ops := [selTick] }
  let b := b + 1
  let cu : List TaskEntry := i.tasks.zipIdx.map (fun p =>
    { kind := .custom p.2, flow := b + p.2 - p.1.seq, pos := p.1.seq, background := p.1.background, cost := p.1.cost
      state := p.1.stateLen, ops := p.1.ops, entry := p.1.entry })
  chains ++ ing ++ md ++ br ++ pr ++ [tl] ++ cu

/-- What the check reads beside the image: role, parameters that commands change, T_VALID, the available cores, and
the homes that are kept (core plus one). -/
structure CheckIn where
  img : Image
  spoke : Bool
  scarf : Nat
  busAlign : Nat → Bool
  xoSrc : Nat → Nat
  tValid : Nat
  avail : List Nat
  homes : SMap Nat
  places : SMap Nat

/-- A flow as the assignment sees it: first task's ID, cost of its FRAME tasks, resident words. -/
structure FlowRec where
  id : Nat
  cost : Nat
  res : Nat
deriving DecidableEq, Repr

/-- The flows of a table, in order of their first task. -/
def flowsOf (t : List TaskEntry) : List FlowRec :=
  let zs := t.zipIdx
  (zs.filter (fun p => p.1.pos = 0)).map (fun p =>
    let own := (zs.drop p.2).takeWhile (fun q => q.1.flow = p.2)
    { id := p.2, cost := ((own.filter (fun q => !q.1.background)).map (fun q => q.1.cost)).sum, res := p.1.state })

/-- A core's load and used scratch in the assignment. -/
structure CoreLoad where
  core : Nat
  load : Nat := 0
  used : Nat := 0
  /-- Regions in use: first word, words. -/
  regions : List (Nat × Nat) := []
deriving DecidableEq, Repr

/-- First word for `n` words beside the regions in use: the lowest place that holds them; where the room is in pieces,
the place after the last region (log 30). -/
def firstFit (regions : List (Nat × Nat)) (n : Nat) : Nat :=
  let ends := 0 :: regions.map (fun r => r.1 + r.2)
  let free := ends.filter (fun a => a + n ≤ 31744 && regions.all (fun r => a + n ≤ r.1 || r.1 + r.2 ≤ a))
  match free with
  | [] => ends.foldl max 0
  | a :: r => r.foldl min a

/-- Resident words of a core (R308). -/
def coreWords : Nat := 31744

/-- The assignment of R308: homes and places of every flow, and the shortfall of the first flow that fits no core. -/
structure Assign where
  cores : List CoreLoad
  homes : SMap Nat := []
  places : SMap Nat := []
  short : Option Nat := none
deriving DecidableEq, Repr

/-- Put a flow on a core, at a place. -/
def putFlow (f : FlowRec) (core place : Nat) (a : Assign) : Assign :=
  { a with
    cores := a.cores.map (fun c => if c.core = core then
      { c with load := c.load + f.cost, used := c.used + f.res, regions := c.regions ++ [(place, f.res)] } else c)
    homes := mset 0 a.homes f.id (core + 1), places := mset 0 a.places f.id place }

/-- The available core with the least load that has room, the lower index on a tie. -/
def leastCore (l : List CoreLoad) (res : Nat) : Option CoreLoad :=
  l.foldl (fun b c => if c.used + res > coreWords then b
    else match b with | none => some c | some x => if c.load < x.load then some c else b) none

/-- Insert a flow in order of decreasing cost, ties to the lower first ID. -/
def insFlow (f : FlowRec) : List FlowRec → List FlowRec
  | [] => [f]
  | g :: r => if g.cost > f.cost || (g.cost = f.cost && g.id < f.id) then g :: insFlow f r else f :: g :: r

/-- Flows by decreasing cost. -/
def sortFlows (l : List FlowRec) : List FlowRec := l.foldr insFlow []

/-- Assign flows to the available cores, keeping the homes in `homes` that stand on one of them (R308, R39). -/
def assign (fl : List FlowRec) (avail : List Nat) (homes places : SMap Nat) : Assign :=
  let s := sortFlows fl
  let kept := fun (f : FlowRec) => let h := mget 0 homes f.id; h ≠ 0 && avail.contains (h - 1)
  let a0 : Assign := { cores := avail.map (fun c => { core := c }) }
  let a1 := (s.filter kept).foldl (fun a f => putFlow f (mget 0 homes f.id - 1) (mget 0 places f.id) a) a0
  (s.filter (fun f => !kept f)).foldl (fun a f =>
    match leastCore a.cores f.res with
    | some c => putFlow f c.core (firstFit c.regions f.res) a
    | none =>
      let miss := a.cores.map (fun c => f.res - (coreWords - c.used))
      let m := match miss with | [] => f.res | x :: r => r.foldl min x
      { a with short := a.short.or (some m) }) a1

/-! ## The schedule of R309 -/

/-- A task that the schedule may start: ready cycle, ID, core, cost. -/
structure SchedTask where
  ready : Nat
  id : Nat
  core : Nat
  cost : Nat
deriving DecidableEq, Repr

/-- Finish times found, by task ID (plus one), and the time each core is free. -/
structure SchedState where
  fin : SMap Nat := []
  free : SMap Nat := []
  todo : List Nat
deriving DecidableEq, Repr

/-- Ready cycle of a task under R309, `none` while a task it waits for has no finish yet. -/
def readyAt (c : CheckIn) (t : List TaskEntry) (cIng cXpe : Nat) (fin : SMap Nat) (e : TaskEntry) : Option Nat :=
  let dep := fun (id : Nat) => let f := mget 0 fin id; if f = 0 then none else some (f - 1)
  let front := fun (n : Nat) => cIng + 64 + cdiv ((cXpe - 64) * (n + 1)) c.img.nOut
  let both := fun (a b : Option Nat) => match a, b with | some x, some y => some (max x y) | _, _ => none
  match e.kind with
  | .front n =>
    if c.xoSrc n = n then some (front n) else both (some (front n)) (dep (2 * c.xoSrc n))
  | .back n => (dep (2 * n)).map (· + tCve c.img n)
  | .custom _ => e.ops.foldl (fun a op =>
      let i := op % 4096
      both a (match op / 4096 with
        | 2 => some (front i)
        | 3 => (dep (2 * i)).map (· + tCve c.img i)
        | 4 => if (t.getD i { kind := .tl, flow := 0, pos := 0, cost := 0, ops := [], background := true }).background
            then some 0 else dep i
        | _ => some 0)) (some 0)
  | _ => some 0

/-- One step of the schedule: the ready task with the least ready cycle, ties to the lower ID, runs on its core. -/
def schedStep (c : CheckIn) (t : List TaskEntry) (cIng cXpe : Nat) (homes : SMap Nat) (s : SchedState) : SchedState :=
  let best := s.todo.foldl (fun (b : Option SchedTask) id =>
    match t[id]? with
    | none => b
    | some e =>
      match readyAt c t cIng cXpe s.fin e with
      | none => b
      | some r =>
        let new : SchedTask := { ready := r, id := id, core := mget 0 homes e.flow, cost := e.cost }
        match b with
        | none => some new
        | some x => if r < x.ready then some new else b) none
  match best with
  | none => s
  | some x =>
    let f := max x.ready (mget 0 s.free x.core) + x.cost
    { fin := mset 0 s.fin x.id (f + 1), free := mset 0 s.free x.core f, todo := s.todo.filter (· ≠ x.id) }

/-- Tasks released by TICK alone, or by records, start at cycle 0 whatever the others do. -/
def tickOnly (e : TaskEntry) : Bool :=
  match e.kind with
  | .front _ => false
  | .back _ => false
  | .custom _ => false
  | _ => true

/-- The tasks that start at cycle 0, in order of their IDs: their finish, and the time each core is free after them. -/
def earlyTasks (t : List TaskEntry) (homes : SMap Nat) : SMap Nat × SMap Nat :=
  let early := t.zipIdx.filter (fun p => !p.1.background && tickOnly p.1 && mget 0 homes p.1.flow ≠ 0)
  early.foldl (fun (m : SMap Nat × SMap Nat) p =>
    let h := mget 0 homes p.1.flow
    let f := mget 0 m.2 h + p.1.cost
    (mset 0 m.1 p.2 (f + 1), mset 0 m.2 h f)) ([], [])

/-- The schedule of every FRAME task: the time each core is free. -/
def schedule (c : CheckIn) (t : List TaskEntry) (cIng cXpe : Nat) (homes : SMap Nat) : SMap Nat :=
  let ids := (t.zipIdx.filter (fun p => !p.1.background && mget 0 homes p.1.flow ≠ 0)).map (·.2)
  let early := earlyTasks t homes
  let todo := ids.filter (fun id => match t[id]? with | some e => !tickOnly e | none => false)
  (iter (schedStep c t cIng cXpe homes) todo.length { fin := early.1, free := early.2, todo := todo }).free

/-! ## The DRAM condition (R36, R401, R402) -/

/-- Capacity in bytes of a channel configuration (R381). -/
def dramCap (v : Nat) : Nat := nth 0 [4, 8, 8, 16, 16] v * 0x40000000

/-- The limit of R36 of a channel configuration, rounded down (R402). -/
def dramLimit (v : Nat) : Nat :=
  let rfc := nth 550 [260, 260, 350, 350, 550] v
  -- 0.60 × 25.6 bytes/ns × (166,667 − 43 × tRFC) ns
  1536 * (166667 - 43 * rfc) / 100

/-- P and G of a convolving output: used partitions and groups (R156). -/
def convPG (i : Image) (n : Nat) : Nat × Nat :=
  let g := outGroups i n
  ((g.map (·.u)).sum, g.length)

/-- Items of R401 as (first byte, bytes occupied, bytes per frame). -/
def dramItems (i : Image) : List (Nat × Nat × Nat) :=
  let n := imgN i
  let objs := if i.objBulkEn then (List.range i.nObj).map (fun o => (i.objBulkBase + o * 1048640, 1048640, 384)) else []
  let conv := ((List.range i.nOut).filter (fun o => (outStat i o).convMax > 0)).zipIdx
  let slot := if i.cveLong then 0x800000 else 0x400000
  let cv := conv.map (fun p => (i.cveBase + p.2 * slot, slot, n * 9 * (2 * (convPG i p.1).1 + (convPG i p.1).2)))
  let ob := if i.outBulkEn then (List.range i.nOut).map (fun o => (i.outBulkBase + o * 2097280, 2097280, 512)) else []
  let dr := ((List.range i.nObj).filter (mayDirect i)).map (fun o =>
    (i.directBase + 16 * i.nOut * o, 16 * i.nOut, 16 * i.nOut))
  objs ++ cv ++ ob ++ dr ++ [(i.haBase, 4325376, 8 * n * i.haChMax)]

/-- Bytes per frame on channels 0 and 1. -/
def dramDemand (i : Image) : Nat × Nat :=
  let cap0 := dramCap (nth 0 i.dcfg 0)
  let s := (dramItems i).foldl (fun (a : Nat × Nat) it =>
    if !i.mapConcat then (a.1 + cdiv it.2.2 2, a.2 + cdiv it.2.2 2)
    else
      (a.1 + (if it.1 < cap0 then it.2.2 else 0), a.2 + (if it.1 + it.2.1 > cap0 then it.2.2 else 0))) (0, 0)
  (s.1 + i.coefBw, s.2 + i.coefBw)

/-! ## The check -/

/-- The result of a check: the words of the BUDGET query (R293), the margins, the first condition that fails with its
excess and unit (R295), and the assignment. -/
structure Check where
  words : List Nat
  margins : List Int
  fail : Option (Nat × Nat × Nat)
  asg : Assign
deriving DecidableEq, Repr

/-- The largest of some numbers. -/
def maxOf (l : List Nat) : Nat := l.foldl max 0

/-- Insert a number in decreasing order. -/
def insDesc (x : Nat) : List Nat → List Nat
  | [] => [x]
  | y :: r => if y ≥ x then y :: insDesc x r else x :: y :: r

/-- Sum of the `k` largest of some numbers. -/
def sumLargest (k : Nat) (l : List Nat) : Nat := ((l.foldr insDesc []).take k).sum

/-- c_sw of the chains homed on a core, the SWAP_MAX largest of them (R309). -/
def swapShare (c : CheckIn) (homes : SMap Nat) (core : Nat) : Nat :=
  sumLargest c.img.swapMax (((List.range c.img.nOut).filter (fun n => mget 0 homes (2 * n) = core + 1)).map (cSw c.img))

/-- The budget check (R33 to R37). (log 33: DESIGN CHOICE, unsafe.) -/
def budgetCheck (c : CheckIn) : Check :=
  let i := c.img
  let outs := List.range i.nOut
  let objs := List.range i.nObj
  let t := buildTable i c.spoke c.busAlign
  let nAvail := c.avail.length
  let cObjs := objs.map (cObj i)
  let cIng := cdiv (cObjs.sum + (outs.map (fun n => cBus (c.busAlign n))).sum) (max 1 nAvail) + maxOf cObjs
    + (if i.objBulkEn then 480 else 0)
  let cXpe := cdiv ((if i.fs96 then 9 else 7) * (slotsP i.nObj * i.nOut + c.scarf)) 2 + 64
  let cTail := maxOf (outs.map (fun n => cFix i n + 2 * cSw i n + tCve i n + (if i.outBulkEn then 480 else 0)
    + (if c.xoSrc n = n then 0 else frontCost i (c.xoSrc n) (c.busAlign (c.xoSrc n)))))
  let cSwap := sumLargest i.swapMax (outs.map (cSw i))
  let cMeta := i.nObj * (if c.spoke then 96 else 120)
  let path := 1500 + 2048 + 768 + 4096 + 1320 + cIng + cXpe + cTail + 1200
  let a := assign (flowsOf t) c.avail c.homes c.places
  let free := schedule c t cIng cXpe a.homes
  let loads := c.avail.map (fun k => mget 0 free (k + 1) + swapShare c a.homes k)
  let largest := maxOf loads
  let b := (a.cores.map (fun k => 170268 - (k.load + swapShare c a.homes k.core))).sum
  let dem := dramDemand i
  let lim0 := dramLimit (nth 0 i.dcfg 0)
  let lim1 := dramLimit (nth 0 i.dcfg 1)
  let geo := cdiv (i.nObj * i.nOut + (objs.map (fun o => if mayVbap i o then 5 * c.tValid else 0)).sum) 3 + 1000
  -- with no core left the excess is in cycles (DESIGN CHOICE, log 33)
  let short := if nAvail = 0 then none else a.short
  let mCore : Int := match short with
    | some w => -(w : Int)
    | none => if nAvail = 0 then -((t.map (·.cost)).sum : Int) else 170268 - (largest : Int)
  let mDram : Int := min ((lim0 : Int) - dem.1) ((lim1 : Int) - dem.2)
  let margins : List Int := [180000 - (path : Int), mCore, mDram, 180000 - (geo : Int)]
  let bad := margins.zipIdx.find? (fun p => p.1 < 0)
  { words := [path, 1500, 2048, 768, 4096, 1320, cIng, cXpe, cTail, 1200, cMeta, cSwap, largest, nAvail, b,
              dem.1, dem.2, min lim0 lim1, geo]
    margins := margins
    fail := bad.map (fun p => (p.2 + 1, p.1.natAbs,
      if p.2 = 2 then 1 else if p.2 = 1 && short.isSome then 2 else 0))
    asg := a }

/-- Failure words of a check (R295). -/
def failDetail (f : Nat × Nat × Nat) : List Nat := [f.1, f.2.1, f.2.2]

/-- Background capacity B of a check's words (R38). -/
def budgetB (words : List Nat) : Nat := nth 0 words 14

end Sys2Proof.Machine
end

