-- ==== Sys2Proof/Machine/CoreExec.lean ====
section
/-! DEFINITION. A render core on its own (chapter 11): registers, scratch moves, addressing, arithmetic, branches,
repeats, and how one instruction issues. What a fault, a completed task or a transfer does to the rest of the device
stands in `Machine/Cores.lean`. -/
namespace Sys2Proof.Machine

/-- What the issue of one instruction leaves. -/
inductive CoreRes where
  /-- The instruction issued. -/
  | ok (c : CoreState)
  /-- It waits for a transfer and has not issued. -/
  | wait (c : CoreState)
  /-- A fault of R348 with this cause. -/
  | fault (cause : Nat)
  /-- A move read this uncorrectable scratch word (R313). -/
  | ecc (w : Nat)
  /-- DONE: the task is complete (R326). -/
  | done
deriving DecidableEq, Repr

/-- What a core knows of its task beside its registers: its index, whether the task is custom code, its class, and
the operand buffers, as (first word, words) of the shared store (R339). -/
structure CoreCtx where
  core : Nat
  custom : Bool
  background : Bool
  bufs : List (Nat × Nat)
deriving DecidableEq, Repr

/-! ## Halves, lanes, integers (R329, R335) -/

abbrev Half := BitVec 36

def loOf (w : Word72) : Half := w.extractLsb' 0 36
def hiOf (w : Word72) : Half := w.extractLsb' 36 36
def ofHalves (hi lo : Half) : Word72 := hi ++ lo
def setLo (w : Word72) (x : Half) : Word72 := ofHalves (hiOf w) x
def setHi (w : Word72) (x : Half) : Word72 := ofHalves x (loOf w)
/-- Half `h` of a word: 0 low, 1 high. -/
def halfOf (w : Word72) (h : Nat) : Half := if h = 0 then loOf w else hiOf w
def setHalf (w : Word72) (h : Nat) (x : Half) : Word72 := if h = 0 then setLo w x else setHi w x

/-- PCM lane `j` of a word (R90): bits [24j + 23 : 24j], signed. -/
def laneOf (w : Word72) (j : Nat) : Int := (w.extractLsb' (24 * j) 24).toInt

/-- A word with PCM lane `j` replaced. -/
def setLane (w : Word72) (j : Nat) (v : Int) : Word72 :=
  let mask : Word72 := BitVec.ofNat 72 (0xFFFFFF * pow2 (24 * j))
  (w &&& ~~~mask) ||| BitVec.ofNat 72 (uext 24 v * pow2 (24 * j))

/-- The signed integer in a half (R335): bits [31:0]. -/
def intOf (x : Half) : Int := (x.extractLsb' 0 32).toInt
/-- The unsigned reading of the same bits. -/
def natOf (x : Half) : BitVec 32 := x.extractLsb' 0 32
/-- A half that holds an integer: bits [35:32] copy bit 31 (R335). -/
def ofInt32 (v : BitVec 32) : Half := v.signExtend 36

/-! ## Arithmetic of one half (R332 to R337) -/

/-- The rounded magnitude of `n * 2^e` exceeds the largest finite value (R334). -/
def f36Over (n : Nat) (e : Int) (sticky : Bool) : Bool :=
  if n = 0 then false else
  let k := 30 - bitLen n
  let n := n <<< k
  let e := e - k
  let s := bitLen n - 28
  let q := roundShift n s sticky
  decide (e + s + (if q = pow2 28 then 1 else 0) + 27 > 127)

/-- An exact result rounded, with whether it saturated. -/
def satDy (x : Dy) : Half × Bool := (ofDy x, f36Over x.m.natAbs x.e false)

/-- The exact quotient of a division rounded, with whether it saturated (R334). -/
def divSat (a b : Half) : Half × Bool :=
  if fzero b then (if fzero a then 0 else f36Max (a.getLsbD 35), true)
  else if fzero a then (0, false)
  else
    let x := toDy a
    let y := toDy b
    let n := x.m.natAbs
    let m := y.m.natAbs
    let k := (34 + bitLen m) - bitLen n
    (dyDiv x y, f36Over ((n <<< k) / m) (x.e - y.e - k) (decide ((n <<< k) % m ≠ 0)))

/-- FTOI and FTOP: `x` as an integer within [lo, hi], with whether it was limited (R336). -/
def toInt (lo hi : Int) (x : Dy) : Int × Bool :=
  let n := dyRound x
  if n < lo then (lo, true) else if n > hi then (hi, true) else (n, false)

/-- PCM of an F36 value by the rule of FTOP, with whether it was limited. -/
def pcmOf (x : Half) : Int × Bool := toInt (-8388608) 8388607 ⟨(toDy x).m, (toDy x).e + 23⟩

/-- FMAC: the product rounded first, the sum second (R332). -/
def opMac (neg : Bool) (d a b : Half) : Half × Bool :=
  let p := satDy (dyMul (toDy a) (toDy b))
  let s := satDy (if neg then dySub (toDy d) (toDy p.1) else dyAdd (toDy d) (toDy p.1))
  (s.1, p.2 || s.2)

/-- FEXP (R337). -/
def opExp (a : Half) : Half :=
  let x := toDy a
  ofInt32 (BitVec.ofInt 32 (if x.m = 0 then -128 else x.e + 27))

/-- FMANT (R337). -/
def opMant (a : Half) : Half := ofInt32 (BitVec.ofInt 32 (toDy a).m)

/-- Bits below bit 31 that equal bit 31, counted downward. -/
def clsGo (v : BitVec 32) : Nat → Nat
  | 0 => 0
  | n + 1 => if v.getLsbD n = v.getLsbD 31 then clsGo v n + 1 else 0

/-- ICLS (R337). -/
def opCls (a : Half) : Half := ofInt32 (BitVec.ofNat 32 (clsGo (natOf a) 31))

/-- The operation of an F36 or integer instruction on one half: accumulator, a, b; result and saturation. -/
abbrev LaneOp := Half → Half → Half → Half × Bool

/-- An integer instruction on one half. -/
def intOp (f : BitVec 32 → BitVec 32 → BitVec 32) : LaneOp := fun _ a b => (ofInt32 (f (natOf a) (natOf b)), false)

/-- Shift count: bits [4:0] of b (R335). -/
def shCount (b : BitVec 32) : Nat := b.toNat % 32

/-! ## Registers -/

def dreg (r : CoreRegs) (n : BitVec 5) : Word72 := mget 0 r.d n.toNat
def setD (r : CoreRegs) (n : BitVec 5) (w : Word72) : CoreRegs := { r with d := mset 0 r.d n.toNat w }

/-- LANE (R333): the operation on the halves it selects, and whether any of them saturated. -/
def laneApply (lane : Lane) (op : LaneOp) (d a b : Word72) : Word72 × Bool :=
  let lo := op (loOf d) (loOf a) (loOf b)
  let hi := op (hiOf d) (hiOf a) (hiOf b)
  let hx := op (hiOf d) (hiOf a) (loOf b)
  match lane with
  | .lo => (setLo d lo.1, lo.2)
  | .hi => (setHi d hi.1, hi.2)
  | .pair => (ofHalves hi.1 lo.1, lo.2 || hi.2)
  | .pairb => (ofHalves hx.1 lo.1, lo.2 || hx.2)

/-- The half that LANE names, where it may only be LO or HI. -/
def laneHalf (lane : Lane) (w : Word72) : Half := if lane = .hi then hiOf w else loOf w

/-- SAT is sticky (R324). -/
def orSat (s : Bool) (r : CoreRegs) : CoreRegs := { r with sat := r.sat || s }

/-! ## Special registers (R354) -/

/-- Registers marked RO in R323. -/
def sregRO (s : Nat) : Bool := (0x40 ≤ s && s ≤ 0x43) || (0x48 ≤ s && s ≤ 0x57)

/-- Registers whose write waits for the next instruction's addressing (R341). -/
def sregLate (s : Nat) : Bool := s < 0x2C

/-- A special register set, truncated to its width. FLAGS takes bits [2:0] alone (R324). -/
def setSreg (s : Nat) (v : BitVec 32) (r : CoreRegs) : CoreRegs :=
  let n := v.toNat
  if s < 0x10 then { r with a := mset 0 r.a s (BitVec.ofNat 17 n) }
  else if s < 0x18 then { r with rb := mset 0 r.rb (s - 0x10) (BitVec.ofNat 17 n) }
  else if s < 0x20 then { r with rl := mset 0 r.rl (s - 0x18) (BitVec.ofNat 17 n) }
  else if s < 0x28 then { r with st := mset 0 r.st (s - 0x20) (BitVec.ofNat 17 n) }
  else if s < 0x2C then
    -- the reserved bit 3 of each byte reads 0 (R330)
    { r with pb := mset 0 r.pb (s - 0x28) (v &&& 0xF7F7F7F7#32) }
  else if s = 0x46 then { r with lr := BitVec.ofNat 16 n }
  else if s = 0x47 then { r with sat := bit n 2, n := bit n 1, z := bit n 0 }
  else r

/-- The writes of the instruction before take effect (R341). -/
def applyLate (r : CoreRegs) : CoreRegs :=
  r.late.foldl (fun r w => setSreg w.sreg w.value r) { r with late := [] }

/-- FLAGS as a byte (R324). -/
def flagsByte (r : CoreRegs) : Nat := ofBits [r.z, r.n, r.sat]

/-- Tags with a transfer in progress. -/
def busyTags (c : CoreState) : BitVec 4 :=
  BitVec.ofNat 4 (ofBits ((List.range 4).map (fun t => (mget none c.xfers t).isSome)))

/-- XST (R324): XE above BUSY. -/
def xst (c : CoreState) : Nat := c.regs.xe.toNat * 16 + (busyTags c).toNat

/-- The value MFS reads: ST sign-extended, every other register zero-extended (R353). A write of the instruction
before is seen (`r` holds it). -/
def getSreg (ctx : CoreCtx) (s : Nat) (r : CoreRegs) (c : CoreState) : Half :=
  let zx : Nat → Half := fun n => BitVec.ofNat 36 n
  let lvl := r.reps.headD { rc := 0, rs := 0, re := 0 }
  if s < 0x10 then zx (mget 0 r.a s).toNat
  else if s < 0x18 then zx (mget 0 r.rb (s - 0x10)).toNat
  else if s < 0x20 then zx (mget 0 r.rl (s - 0x18)).toNat
  else if s < 0x28 then (mget 0 r.st (s - 0x20)).signExtend 36
  else if s < 0x2C then zx (mget 0 r.pb (s - 0x28)).toNat
  else if s = 0x40 then zx lvl.rc.toNat
  else if s = 0x41 then zx lvl.rs.toNat
  else if s = 0x42 then zx lvl.re.toNat
  else if s = 0x43 then zx r.reps.length
  else if s = 0x46 then zx r.lr.toNat
  else if s = 0x47 then zx (flagsByte r)
  else if s = 0x48 then zx r.sb
  else if s = 0x49 then zx r.sl
  else if s = 0x4A then zx r.tid
  else if s = 0x4B then zx r.fn.toNat
  else if s = 0x4C then zx ctx.core
  else if s = 0x4D then zx r.cyc
  else if s = 0x4E then zx (xst c)
  else if s = 0x4F then zx c.fcause.toNat
  else zx (mget 0 r.arg (s - 0x50))

/-! ## Addressing (R330) -/

/-- The binding byte of A[n]. -/
def binding (r : CoreRegs) (n : Nat) : Nat := ((mget 0 r.pb (n / 4)).toNat >>> (8 * (n % 4))) % 256

/-- Effective address of A[n]; `none` is RING_ZERO. -/
def effAddr (r : CoreRegs) (n : Nat) : Option Nat :=
  let b := binding r n
  let a := (mget 0 r.a n).toNat
  if bit b 7 then
    let k := (b / 16) % 8
    let l := (mget 0 r.rl k).toNat
    if l = 0 then none else some ((mget 0 r.rb k).toNat + a % l)
  else some a

/-- A[n] after a modification by `m`, from a value `a` of it, with the bindings of `r`. -/
def postMod (r : CoreRegs) (n : Nat) (a : BitVec 17) (m : Int) : BitVec 17 :=
  let b := binding r n
  if bit b 7 then
    let l := (mget 0 r.rl ((b / 16) % 8)).toNat
    if l = 0 then a else BitVec.ofInt 17 (((a.toNat % l : Nat) + m) % l)
  else BitVec.ofInt 17 (a.toNat + m)

/-- The modification that MOD names (R352); `none` leaves A[n] as it is read. -/
def modOf (r : CoreRegs) (mv : Move) : Int :=
  match mv.mod.toNat with
  | 0 => 0
  | 1 => 1
  | 2 => -1
  | _ => (mget 0 r.st (binding r mv.preg.toNat % 8)).toInt

/-- Scratch word that a move of SIZE reaches at effective address `e` (R329). -/
def moveWord (size : BitVec 3) (e : Nat) : Nat :=
  match size.toNat with
  | 0 => e
  | 3 => e / 3
  | 4 => e / 3
  | _ => e / 2

/-- The task's scratch range holds word `w` (R327). -/
def inRange (r : CoreRegs) (w : Nat) : Bool := r.sb ≤ w && w < r.sb + r.sl

/-- The cause with which a move faults, if it does: RING_ZERO, SCRATCH_RANGE. -/
def moveFault (r : CoreRegs) (mv : Move) : Option Nat :=
  match effAddr r mv.preg.toNat with
  | none => some 0x0A
  | some e => if e ≥ 131072 || !inRange r (moveWord mv.size e) then some 0x02 else none

/-- Effective address of a move that does not fault. -/
def moveAddr (r : CoreRegs) (mv : Move) : Nat := (effAddr r mv.preg.toNat).getD 0

/-- A move reaches a scratch word inside the range of a busy transfer (R338). -/
def moveBusy (c : CoreState) (mv : Move) : Bool :=
  let w := moveWord mv.size (moveAddr c.regs mv)
  c.xfers.any (fun p => match p.2 with | some x => x.scratch ≤ w && w < x.scratch + x.count | none => false)

/-- A load's effect on its D register (R329). -/
def loadInto (size : BitVec 3) (e : Nat) (word d : Word72) : Word72 :=
  match size.toNat with
  | 0 => word
  | 1 => setLo d (halfOf word (e % 2))
  | 2 => setHi d (halfOf word (e % 2))
  | 3 => setLo d (ofPcm (laneOf word (e % 3)))
  | 4 => setHi d (ofPcm (laneOf word (e % 3)))
  | _ => ofHalves (halfOf word (e % 2)) (halfOf word (e % 2))

/-- A store's effect on its word, with whether a conversion was limited (R329, R336). -/
def storeInto (size : BitVec 3) (e : Nat) (word d : Word72) : Word72 × Bool :=
  match size.toNat with
  | 0 => (d, false)
  | 1 => (setHalf word (e % 2) (loOf d), false)
  | 2 => (setHalf word (e % 2) (hiOf d), false)
  | 3 => (setLane word (e % 3) (pcmOf (loOf d)).1, (pcmOf (loOf d)).2)
  | _ => (setLane word (e % 3) (pcmOf (hiOf d)).1, (pcmOf (hiOf d)).2)

/-- One move, with the pointer values and D registers `old` that stood before the instruction; `c` holds the scratch
and the D registers as the arithmetic and the earlier slot left them (R328). -/
def doMove (old : CoreRegs) (mv : Move) (c : CoreState) : CoreState :=
  let e := moveAddr old mv
  let w := moveWord mv.size e
  let word := mget 0 c.scratch w
  if mv.store then
    let p := storeInto mv.size e word (dreg old mv.dreg)
    { c with scratch := mset 0 c.scratch w p.1, bad := c.bad.filter (· ≠ w), soft := c.soft.filter (· ≠ w)
             regs := orSat p.2 c.regs }
  else { c with regs := setD c.regs mv.dreg (loadInto mv.size e word (dreg c.regs mv.dreg)) }

/-- The post-modification of a move: MOVE0's comes first, MOVE1's works on what it left (R328). The result
prevails over a write of the instruction before (R341). -/
def postModify (old : CoreRegs) (mvs : List Move) (r : CoreRegs) : CoreRegs :=
  let as := mvs.foldl (fun (m : SMap (BitVec 17)) mv =>
    let n := mv.preg.toNat
    if mv.mod = 0 && !bit (binding old n) 7 then m
    else mset 0 m n (postMod old n (mget 0 m n) (modOf old mv))) old.a
  -- registers that a move wrote take its value, the others keep theirs
  mvs.foldl (fun r mv =>
    let n := mv.preg.toNat
    if mv.mod = 0 && !bit (binding old n) 7 then r else { r with a := mset 0 r.a n (mget 0 as n) }) r

/-! ## Time (R340) -/

/-- CYC saturates (R323). -/
def satCyc (n : Nat) : Nat := min n 0xFFFFFFFF

/-- The cycle at which an instruction issues that reads D registers `reads` (as accumulator `acc` of an FMAC or
FMSC), writes `dst` after `lat` cycles and loads `loads` after one (R340, R341). -/
def issueAt (r : CoreRegs) (reads : List (BitVec 5)) (acc dst : Option (BitVec 5)) (lat : Nat)
    (div flags : Bool) (loads : List (BitVec 5) := []) : Nat :=
  let t := reads.foldl (fun t n => max t (mget 0 r.dReady n.toNat)) r.cyc
  let t := loads.foldl (fun t n => max t (mget 0 r.dReady n.toNat - 1)) t
  let t := match acc with
    | none => t
    | some n => max t (match mget 0 r.macAt n.toNat with | 0 => mget 0 r.dReady n.toNat | m => m)
  let t := match dst with | none => t | some n => max t (mget 0 r.dReady n.toNat - lat)
  let t := if div then max t r.divReady else t
  if flags then max t r.flagsReady else t

/-- The instruction issues at cycle `t`: what it writes is available later, CYC is its next cycle. -/
def stamp (t : Nat) (dst : Option (BitVec 5)) (lat : Nat) (mac : Bool) (loads : List (BitVec 5))
    (r : CoreRegs) : CoreRegs :=
  let r := { r with cyc := satCyc (t + 1), stalled := false }
  let r := match dst with
    | none => r
    | some n => { r with dReady := mset 0 r.dReady n.toNat (t + lat),
                         macAt := mset 0 r.macAt n.toNat (if mac then t + 1 else 0) }
  loads.foldl (fun r n => { r with dReady := mset 0 r.dReady n.toNat (max (mget 0 r.dReady n.toNat) (t + 1)),
                                   macAt := mset 0 r.macAt n.toNat 0 }) r

/-! ## The next instruction (R342, R344) -/

/-- Levels that a taken branch to `t` leaves (R344). -/
def popOut (t : BitVec 16) : List RepLevel → List RepLevel
  | [] => []
  | l :: rest => if l.rs.toNat ≤ t.toNat && t.toNat ≤ l.re.toNat then l :: rest else popOut t rest

/-- The address of the next instruction after the one at PC has issued. (log 14: DESIGN CHOICE, safe.) -/
def advance (r : CoreRegs) : CoreRegs :=
  let r := { r with holdN := r.holdN - 1, repEdge := false }
  if r.slots = 0 then
    match r.reps with
    | [] => { r with pc := r.pc + 1 }
    | l :: rest =>
      if r.pc ≠ l.re then { r with pc := r.pc + 1 }
      else if l.rc.toNat > 1 then { r with pc := l.rs, reps := { l with rc := l.rc - 1 } :: rest }
      else { r with pc := r.pc + 1, reps := rest }
  else if r.slots = 1 then
    match r.target with
    | none => { r with pc := r.pc + 1, slots := 0 }
    | some t => { r with pc := t, slots := 0, target := none, reps := popOut t r.reps }
  else { r with pc := r.pc + 1, slots := r.slots - 1 }

/-- The faults an instruction meets before it does anything: PC_RANGE; SLOT for an instruction of R343 in a delay slot
or at the end of a body, or a delay slot at the end of a body; HOLD_STALL for WAITX and XFER (R343 to R345, R348).
(log 60: DEDUCED, unsafe.) -/
def preFault (ctx : CoreCtx) (listed xferLike : Bool) (r : CoreRegs) : Option Nat :=
  let atEnd := match r.reps with | l :: _ => r.pc == l.re | [] => false
  if ctx.custom && r.pc.toNat < 0x8000 then some 0x01
  else if listed && r.slots ≠ 0 then some 0x03
  else if atEnd && (listed || r.slots ≠ 0) then some 0x03
  else if xferLike && (r.slots ≠ 0 || r.holdN ≠ 0) then some 0x07
  else none

/-- An instruction issues where nothing waits: a core that waits in WAITX or DONE issues none. -/
def issue (ctx : CoreCtx) (listed xferLike : Bool) (f : CoreState → CoreRes) (c : CoreState) : CoreRes :=
  match preFault ctx listed xferLike c.regs with
  | some k => .fault k
  | none => f c

/-! ## Format A (R351, R352) -/

/-- What a format A instruction reads and writes, and how. -/
structure AOp where
  reads : List (BitVec 5)
  acc : Option (BitVec 5) := none
  dst : Option (BitVec 5) := none
  lat : Nat
  div : Bool := false
  mac : Bool := false
  /-- The arithmetic on the registers. -/
  run : CoreRegs → CoreRegs
  /-- Cycles until its FLAGS are available: FCMP and ICMP. -/
  flags : Option Nat := none

/-- Moves of an instruction in order: MOVE0, then MOVE1. -/
def aMoves (f : AFmt) : List Move := f.move0.toList ++ f.move1.toList

/-- A load of an uncorrectable word, if a move makes one: MOVE1 reads what MOVE0 has stored (R328, R313). -/
def badLoad (c : CoreState) (mvs : List Move) : Option Move :=
  let word := fun (mv : Move) => moveWord mv.size (moveAddr c.regs mv)
  let stored := (mvs.take 1).filterMap (fun mv => if mv.store then some (word mv) else none)
  mvs.zipIdx.findSome? (fun p =>
    let w := word p.1
    if !p.1.store && c.bad.contains w && !(p.2 = 1 && stored.contains w) then some p.1 else none)

/-- Issue of a format A instruction: the arithmetic, then MOVE0, then MOVE1, all with the registers that stood
before it (R328). -/
def runA (f : AFmt) (o : AOp) (c : CoreState) : CoreRes :=
  let old := c.regs
  let mvs := aMoves f
  match mvs.findSome? (moveFault old) with
  | some k => .fault k
  | none =>
    if mvs.any (moveBusy c) then
      if old.slots ≠ 0 || old.holdN ≠ 0 then .fault 0x07
      else .wait { c with regs := { old with stalled := true, repEdge := false } }
    else match badLoad c mvs with
    | some mv => .ecc (moveWord mv.size (moveAddr old mv))
    | none =>
      let loads := (mvs.filter (fun mv => !mv.store)).map (fun mv => mv.dreg)
      let stores := (mvs.filter (fun mv => mv.store)).map (fun mv => mv.dreg)
      let t := issueAt old (o.reads ++ stores) o.acc o.dst o.lat o.div false loads
      let r := o.run (applyLate old)
      let c1 := mvs.foldl (fun c mv => doMove old mv c) { c with regs := r }
      let r := postModify old mvs c1.regs
      let r := stamp t o.dst o.lat o.mac loads r
      let r := if o.div then { r with divReady := t + 7 } else r
      let r := match o.flags with | some l => { r with flagsReady := t + l } | none => r
      .ok { c1 with regs := advance r }

/-- An F36 or integer instruction that writes the halves of DST that LANE selects. (log 60: DEDUCED, unsafe.) -/
def arith (f : AFmt) (lat : Nat) (binary : Bool) (op : LaneOp) : AOp :=
  { reads := if binary then [f.srcA, f.srcB] else [f.srcA], dst := some f.dst, lat := lat
    run := fun r =>
      let p := laneApply f.lane op (dreg r f.dst) (dreg r f.srcA) (dreg r f.srcB)
      orSat p.2 (setD r f.dst p.1) }

/-- FMAC and FMSC: DST is the accumulator (R333). -/
def arithMac (f : AFmt) (neg : Bool) : AOp :=
  { arith f 3 true (opMac neg) with acc := some f.dst, mac := true }

/-- FCMP and ICMP: Z and N (R334, R335). -/
def compare (f : AFmt) (lat : Nat) (eq lt : Half → Half → Bool) : AOp :=
  { reads := [f.srcA, f.srcB], lat := 0, flags := some lat
    run := fun r =>
      let a := laneHalf f.lane (dreg r f.srcA)
      let b := laneHalf f.lane (dreg r f.srcB)
      { r with z := eq a b, n := lt a b } }

/-- PTOF: F36 of a PCM lane of a (R336). -/
def opPtof (f : AFmt) : AOp :=
  { reads := [f.srcA], dst := some f.dst, lat := 3
    run := fun r =>
      let x := ofPcm (laneOf (dreg r f.srcA) f.srcB.toNat)
      let d := dreg r f.dst
      setD r f.dst (if f.lane = .hi then setHi d x else setLo d x) }

/-- FTOP: a PCM lane of d from a half of a (R336). -/
def opFtop (f : AFmt) : AOp :=
  { reads := [f.srcA], dst := some f.dst, lat := 3
    run := fun r =>
      let p := pcmOf (laneHalf f.lane (dreg r f.srcA))
      orSat p.2 (setD r f.dst (setLane (dreg r f.dst) f.srcB.toNat p.1)) }

/-- DMOV: all 72 bits (R335). -/
def opDmov (f : AFmt) : AOp :=
  { reads := [f.srcA], dst := some f.dst, lat := 1, run := fun r => setD r f.dst (dreg r f.srcA) }

/-- NOP: moves only. -/
def opNop : AOp := { reads := [], lat := 0, run := id }

/-! ## The other formats -/

/-- An instruction without moves: it reads `reads`, writes `dst` after `lat` cycles, acts on the registers. -/
def runPlain (reads : List (BitVec 5)) (dst : Option (BitVec 5)) (lat : Nat) (flags : Bool)
    (f : CoreRegs → CoreRegs) (c : CoreState) : CoreRes :=
  let t := issueAt c.regs reads none dst lat false flags
  .ok { c with regs := advance (stamp t dst lat false [] (f { applyLate c.regs with cyc := satCyc t })) }

/-- MTS and MTSI with the value (R353): REG_WRITE for a read-only register; an addressing register is seen by the
instruction after the next (R341). -/
def runMts (sreg : BitVec 7) (reads : List (BitVec 5)) (v : CoreRegs → BitVec 32) (c : CoreState) : CoreRes :=
  let s := sreg.toNat
  if sregRO s then .fault 0x09
  else
    let val := v c.regs
    runPlain reads none 0 (s == 0x47)
      (fun r => if sregLate s then { r with late := [{ sreg := s, value := val }] } else setSreg s val r) c

/-- PADDI (R330): RING_ZERO where the ring is empty; the sum is seen by the instruction after the next. -/
def runPaddi (areg : BitVec 4) (imm : BitVec 32) (c : CoreState) : CoreRes :=
  let n := areg.toNat
  match effAddr c.regs n with
  | none => .fault 0x0A
  | some _ =>
    let v := postMod c.regs n (mget 0 c.regs.a n) imm.toInt
    runPlain [] none 0 false (fun r => { r with late := [{ sreg := n, value := v.zeroExtend 32 }] }) c

/-- A condition of R342. -/
def condHolds (cond : BitVec 3) (r : CoreRegs) : Bool :=
  match cond.toNat with
  | 0 => true
  | 1 => r.z
  | 2 => !r.z
  | 3 => r.n
  | 4 => !r.n
  | 5 => r.n || r.z
  | 6 => !r.n && !r.z
  | _ => r.sat

/-- BR, CALL and RET: two delay slots follow (R342). `link` writes LR with the address + 3. -/
def runBranch (cond : BitVec 3) (target : CoreRegs → BitVec 16) (link : Bool) (c : CoreState) : CoreRes :=
  let old := c.regs
  let t := issueAt old [] none none 0 false (cond ≠ 0)
  let taken := condHolds cond old
  let goal := target old
  let r := advance (stamp t none 0 false [] (applyLate old))
  let r := { r with slots := 2, target := if taken then some goal else none }
  .ok { c with regs := if link then { r with lr := old.pc + 3 } else r }

/-- REP and REPD with their count (R344). -/
def runRep (count : CoreRegs → Nat) (reads : List (BitVec 5)) (end_ : BitVec 16) (c : CoreState) : CoreRes :=
  let old := c.regs
  let pc := old.pc.toNat
  let len := end_.toNat - pc
  let nested := match old.reps with
    | [] => true
    | [l] => l.rs.toNat ≤ pc && pc ≤ l.re.toNat && end_.toNat < l.re.toNat
    | _ => false
  if len = 0 || len > 4096 || !nested then .fault 0x04
  else
    let t := issueAt old reads none none 0 false false
    let n := count old
    let r := advance (stamp t none 0 false [] (applyLate old))
    if n = 0 then .ok { c with regs := { r with pc := end_ + 1 } }
    else .ok { c with regs := { r with reps := { rc := BitVec.ofNat 16 n, rs := old.pc + 1, re := end_ } :: old.reps
                                       repEdge := true } }

/-- The count of REPD: D[CNT].lo as a signed integer within 0 to 65,535 (R344). -/
def repdCount (cnt : BitVec 5) (r : CoreRegs) : Nat :=
  let v := intOf (loOf (dreg r cnt))
  if v < 0 then 0 else min v.toNat 65535

/-- HOLD n (R345). -/
def runHold (n : BitVec 3) (c : CoreState) : CoreRes :=
  let t := issueAt c.regs [] none none 0 false false
  let r := advance (stamp t none 0 false [] (applyLate c.regs))
  .ok { c with regs := { r with holdN := n.toNat } }

/-- The core moves past a WAITX whose tags are free. -/
def passWait (c : CoreState) : CoreState :=
  let t := issueAt c.regs [] none none 0 false false
  { c with regs := { advance (stamp t none 0 false [] (applyLate c.regs)) with waitMask := none } }

/-- WAITX (R338): the core waits while a tag of the mask is busy. -/
def runWaitx (mask : BitVec 4) (c : CoreState) : CoreRes :=
  if busyTags c &&& mask = 0 then .ok (passWait c)
  else .wait { c with regs := { c.regs with waitMask := some mask, repEdge := false } }

/-- DONE (R326): the core waits until no tag is busy, then the task is complete. -/
def runDone (c : CoreState) : CoreRes :=
  if busyTags c = 0 then .done else .wait { c with regs := { c.regs with doneWait := true, repEdge := false } }

/-- The kinds of crossbar address a core can reach (R338, R370): word view, sample view, DRAM. -/
inductive XTarget where
  | word (w : Nat) | sample (s : Nat) | dram (w : Nat) | other
deriving DecidableEq, Repr

/-- The target of `count` words from crossbar address `a`: all of them must lie in one view. -/
def xTarget (a count : Nat) : XTarget :=
  if a + count ≤ 0x100000 then .word a
  else if 0x4000000 ≤ a && a < 0x4300000 && a - 0x4000000 + 3 * count ≤ 0x300000 then .sample (a - 0x4000000)
  else if 0x1000000000 ≤ a && a + count ≤ 0x1100000000 then .dram (a - 0x1000000000)
  else .other

/-- A write to the target reaches an operand buffer (R338, R339). (log 16: DESIGN CHOICE, safe.) -/
def hitsBuffer (bufs : List (Nat × Nat)) (t : XTarget) (count : Nat) : Bool :=
  let rng : Option (Nat × Nat) := match t with
    | .word w => some (w, w + count)
    | .sample s => some (s / 3, (s + 3 * count + 2) / 3)
    | _ => none
  match rng with
  | none => false
  | some p => bufs.any (fun b => decide (b.1 < p.2) && decide (p.1 < b.1 + b.2))

/-- Order of the next transfer of a core: behind every one in progress (R338). -/
def nextOrd (c : CoreState) : Nat :=
  let live := fun (m : SMap (Option Xfer)) => m.filterMap (·.2)
  (live c.xfers ++ live c.sxfers ++ c.dead.map (·.2)).foldl (fun m x => max m (x.ord + 1)) 0

/-- XFER (R338): it starts a transfer on its tag; its words move when the transfer completes. It waits for a busy tag, and for
the port to complete the transfers of an aborted task (R379). -/
def runXfer (ctx : CoreCtx) (write : Bool) (tag : BitVec 2) (ps : BitVec 4) (da : BitVec 5) (count : BitVec 14)
    (c : CoreState) : CoreRes :=
  let old := c.regs
  let n := count.toNat
  if (mget none c.xfers tag.toNat).isSome || !c.dead.isEmpty then
    .wait { c with regs := { old with stalled := true, repEdge := false } }
  else match effAddr old ps.toNat with
  | none => .fault 0x0A
  | some e =>
    if e < old.sb || e + n > old.sb + old.sl then .fault 0x02
    else
      let addr := (dreg old da).toNat % pow2 40
      let tgt := xTarget addr n
      let reach := match tgt with
        | .word _ => true
        | .sample _ => true
        | .dram _ => ctx.background
        | .other => false
      if !reach || (write && hitsBuffer ctx.bufs tgt n) then .fault 0x05
      else
        let t := issueAt old [da] none none 0 false false
        let x : Xfer := { write := write, scratch := e, count := n, addr := addr, ord := nextOrd c }
        let r := advance (stamp t none 0 false [] (applyLate old))
        .ok { c with xfers := mset none c.xfers tag.toNat (some x), regs := r }

/-! ## Suspension (R345, R346) -/

/-- The boundary before the next instruction is interruptible (R345). (log 56: DEDUCED, safe.) -/
def interruptible (r : CoreRegs) : Bool := r.slots == 0 && r.holdN == 0 && !r.repEdge

/-- Four 17-bit fields in a word (R346). -/
def four17 (m : SMap (BitVec 17)) (k : Nat) : Word72 :=
  BitVec.ofNat 72 ((List.range 4).foldl (fun s j => s + (mget 0 m (4 * k + j)).toNat * pow2 (17 * j)) 0)

/-- Word `w` of the context record, 0 to 46 (R346). -/
def contextWord (c : CoreState) (w : Nat) : Word72 :=
  let r := applyLate c.regs
  let lvl : Nat → RepLevel := fun i => nth { rc := 0, rs := 0, re := 0 } r.reps i
  if w < 32 then mget 0 r.d w
  else if w < 36 then four17 r.a (w - 32)
  else if w < 38 then four17 r.rb (w - 36)
  else if w < 40 then four17 r.rl (w - 38)
  else if w < 42 then four17 r.st (w - 40)
  else if w < 44 then
    BitVec.ofNat 72 ((mget 0 r.pb (2 * (w - 42))).toNat + (mget 0 r.pb (2 * (w - 42) + 1)).toNat * pow2 32)
  else if w < 46 then
    let l := lvl (w - 44)
    BitVec.ofNat 72 (l.rc.toNat + l.rs.toNat * pow2 16 + l.re.toNat * pow2 32 +
      (if w = 44 then r.reps.length * pow2 48 else 0))
  else
    BitVec.ofNat 72 (r.lr.toNat + r.pc.toNat * pow2 16 + flagsByte r * pow2 32 + xst c * pow2 40 +
      (if r.waitMask.isSome then pow2 48 else 0))

/-- The context record written to scratch words 32,704 to 32,750, and the registers kept for the resumption.
(log 56: DEDUCED, safe.) -/
def saveContext (c : CoreState) : CoreState :=
  { c with scratch := msets 0 c.scratch ((List.range 47).map (fun w => (32704 + w, contextWord c w)))
           bad := c.bad.filter (fun w => w < 32704 || w ≥ 32751)
           soft := c.soft.filter (fun w => w < 32704 || w ≥ 32751)
           saved := some { c.regs with dReady := [], macAt := [], flagsReady := 0, divReady := 0 },
           sxfers := c.xfers }

end Sys2Proof.Machine
end

