-- ==== Sys2Proof/Machine/Dispatcher.lean ====
section
/-! DEFINITION. The dispatcher (chapter 10): tokens and release, ready lists, cancellation and aborts, core states,
state copies, resets, the trace. -/
namespace Sys2Proof.Machine

/-! ## Trace (R317 to R319, R271) -/

/-- Bit of SEL that selects a record type (R319). -/
def traceBit (typ : Nat) : Nat := if typ ≥ 7 then 6 else typ - 1

/-- A trace record is generated: counted, and stored or lost. Recording delays no task.
(log 14: DESIGN CHOICE, safe.) -/
def trace (typ core task : Nat) (fn : BitVec 32) (arg : Nat) (d : Device) : Device :=
  let t := d.disp.trace
  if !t.on || t.left = some 0 || !t.sel.getLsbD (traceBit typ) || !t.clMask.getLsbD (core / 8) then d
  else
    let c := drawCount d
    let r : TraceRec :=
      { typ := typ, core := core, task := task, fn := fn, arg := arg % 65536
        depth := min 255 (cslotAt d core).ready.length, rseq := t.rseq % 256, cyc := Config.freeNat c.1 % pow2 18 }
    let full := t.buf.length ≥ 16384
    { c.2 with disp := { d.disp with trace := { t with
        rseq := t.rseq + 1, left := t.left.map (· - 1), buf := if full then t.buf else t.buf ++ [r]
        lost := if full then inc32 t.lost else t.lost } } }

/-- A free count of cycles, saturated at 65,535, for the ARG of DISPATCH and COMPLETE (R318).
(log 14: DESIGN CHOICE, safe.) -/
def freeCycles (d : Device) : Nat × Device :=
  let c := drawCount d
  (Config.freeNat c.1 % 65536, c.2)

/-- The number of a core state (R310). -/
def coreNum : CoreSt → Nat
  | .available => 0 | .spare => 1 | .leaving => 2 | .offline => 3 | .joining => 4

/-- The CORE record of a core as it is (R318): 0 command, 1 fault, 2 online, 3 cluster reset. -/
def traceCore (core why : Nat) (e : Env) (d : Device) : Device :=
  trace 7 core 0xFFFF e.fn (coreNum (cslotAt d core).st + 256 * why) d

/-- A change of a core's state, with its trace record (R310, R318). -/
def setCoreSt (core : Nat) (st : CoreSt) (why : Nat) (e : Env) (d : Device) : Device :=
  traceCore core why e (modCslot core (fun c => { c with st := st }) d)

/-! ## Tasks and flows -/

/-- The entry of a task ID. -/
def taskAt (d : Device) (id : Nat) : Option TaskEntry := d.disp.tasks[id]?

/-- The operand selectors of a task for the frame that runs: FRONT also takes FRONT of XO_SRC (R298), of the frame
before too where XO_SRC changed and block 1 is scarfed (R162). -/
def opsOf (d : Device) (t : TaskEntry) : List Nat :=
  match t.kind with
  | .front n =>
    let o := outAt d n
    let m := [xoSrcOf o.live n, xoSrcOf o.prev n].eraseDups.filter (· ≠ n)
    t.ops ++ m.map (fun x => selTask (2 * x))
  | _ => t.ops

/-- Home core of a flow. -/
def homeOf (d : Device) (flow : Nat) : Option Nat :=
  let h := mget 0 d.disp.homes flow
  if h = 0 then none else some (h - 1)

/-- Every piece of work of a core's slot: running, ready, suspended. -/
def coreWork (c : CoreSlot) : List Work := c.running.toList ++ c.ready ++ c.suspended.toList

/-- Every piece of work under way or waiting, re-run tasks apart. -/
def allWork (d : Device) : List Work :=
  d.disp.cores.flatMap (fun p => coreWork p.2) ++ d.cores.flatMap (fun p => p.2.parked.map (·.work)) ++ d.disp.background

/-- A piece of work belongs to a flow. -/
def inFlow (d : Device) (flow : Nat) (w : Work) : Bool := (taskAt d w.task).any (fun t => t.flow = flow)

/-- Work of a flow is somewhere under way or waiting to start. -/
def flowBusy (d : Device) (flow : Nat) : Bool := (allWork d).any (inFlow d flow)

/-- The task has completed for frame `k`, or runs, or waits on a list. -/
def taskOut (d : Device) (id : Nat) (k : BitVec 32) : Bool :=
  d.disp.finished.contains (id, k) || (allWork d).any (fun w => w.task = id && w.frame = k)

/-- The tick that cancels frame `k` has not come (R304). -/
def frameOpen (d : Device) (k : BitVec 32) : Bool :=
  match d.disp.cancelled with | none => true | some c => later k c

/-- The flow's tasks of frame `j` have completed, or will not (R301): the frame is cancelled, or precedes rendering. -/
def flowOver (d : Device) (flow : Nat) (j : BitVec 32) : Bool :=
  !frameOpen d j || later d.pwr.startFn j
    || d.disp.tasks.zipIdx.all (fun p => p.1.flow ≠ flow || d.disp.finished.contains (p.2, j))

/-- Place of a task's entry for frame `k` in the matching store (R303). -/
def storeKey (id : Nat) (k : BitVec 32) : Nat := 2 * id + k.toNat % 2

/-- All bits of the used slots are set (R303). -/
def bitsFull (d : Device) (id : Nat) (k : BitVec 32) (t : TaskEntry) : Bool :=
  let bits := mget 0 d.disp.store (storeKey id k)
  (opsOf d t).zipIdx.all (fun p => p.1 = 0 || bits.getLsbD p.2)

/-- The flow's earlier tasks have completed: for the frame, and for every earlier frame (R301). -/
def predsDone (d : Device) (id : Nat) (k : BitVec 32) (t : TaskEntry) : Bool :=
  if t.pos = 0 then !flowBusy d t.flow && flowOver d t.flow (k - 1) else d.disp.finished.contains (id - 1, k)

/-- Insert work in the order of release (R305, R306). -/
def insWork (w : Work) : List Work → List Work
  | [] => [w]
  | x :: r => if w.rel < x.rel then w :: x :: r else x :: insWork w r

/-- Work stands on the ready list of its flow's home core, or on the background list (R305, R306). -/
def putWork (flow : Nat) (w : Work) (d : Device) : Device :=
  if w.bg then { d with disp := { d.disp with background := insWork w d.disp.background } }
  else match homeOf d flow with
    | some c => modCslot c (fun s => { s with ready := insWork w s.ready }) d
    | none => d

/-- Work is released: it joins its list behind what was released before. -/
def enlist (flow : Nat) (w : Work) (d : Device) : Device :=
  let n := d.disp.releases
  putWork flow { w with rel := n } { d with disp := { d.disp with releases := n + 1 } }

/-- A job joins the background list (R306). (log 57: DESIGN CHOICE, safe.) -/
def enlistJob (j : Job) (e : Env) (d : Device) : Device :=
  enlist 0 { task := 0xFFFF, frame := e.fn - 1, job := some j, bg := true } d

/-- A metadata task: RECORD tokens release it and bypass the store. -/
def isMd (t : TaskEntry) : Bool := match t.kind with | .md _ => true | _ => false

/-- Release a task of frame `k` whose operands and predecessors are there (R303). -/
def tryRelease (k : BitVec 32) (id : Nat) (d : Device) : Device :=
  match taskAt d id with
  | none => d
  | some t =>
    if isMd t || !frameOpen d k || taskOut d id k || !bitsFull d id k t || !predsDone d id k t then d
    else
      let d := enlist t.flow { task := id, frame := k, bg := t.background } d
      trace 2 ((homeOf d t.flow).getD 0) id k 0 d

/-- Insert a task and frame in order of the ID. -/
def insId (x : Nat × BitVec 32) : List (Nat × BitVec 32) → List (Nat × BitVec 32)
  | [] => [x]
  | y :: r => if x.1 < y.1 then x :: y :: r else y :: insId x r

/-- Release what is ready among some tasks: one event releases them in the same cycle, and the lower ID comes first (R305).
(log 130: DESIGN CHOICE, unsafe.) -/
def releaseSome (l : List (Nat × BitVec 32)) (d : Device) : Device :=
  forAll (l.foldr insId []) (fun p d => tryRelease p.2 p.1 d) d

/-- After a task of a flow is gone, the flow's first task may start for a frame after `k` (R301, R303). -/
def nextOfFlow (d : Device) (id : Nat) (k : BitVec 32) : List (Nat × BitVec 32) :=
  match taskAt d id with | none => [] | some t => [(t.flow, k), (t.flow, k + 1), (t.flow, k + 2)]

/-! ## Operand data (R339) -/

/-- F36 samples packed two to a word, low half first. -/
def packHalves : List F36 → List Word72
  | [] => []
  | [a] => [ofHalves 0 a]
  | a :: b :: r => ofHalves b a :: packHalves r

/-- PCM samples packed three to a word. -/
def packLanes : List Int → List Word72
  | [] => []
  | [a] => [setLane 0 0 a]
  | [a, b] => [setLane (setLane 0 0 a) 1 b]
  | a :: b :: c :: r => setLane (setLane (setLane 0 0 a) 1 b) 2 c :: packLanes r

/-- The samples that a bulk-delay read of object `o` brings for the frame about to be written (R94). -/
def bulkRead (d : Device) (o : Nat) : List Int :=
  let x := objAt d o
  (List.range (nSmp d)).map (fun (i : Nat) =>
    let at_ : Int := (x.bulkDepth : Int) + i - x.bulkLive
    if at_ ≥ x.bulkDepth then 0 else if at_ < 0 then 0 else mget 0 x.bulkLine (at_.toNat % 262160))

/-- The data that an operand carries, as the words at ARG. -/
def operandWords (d : Device) (sel : Nat) (record : List Byte) : List Word72 :=
  let i := sel % 4096
  match sel / 4096 with
  | 2 => packHalves ((outAt d i).xsum.getD [])
  | 3 => packHalves ((outAt d i).convOut.getD [])
  | 5 => packLanes (bulkRead d i)
  | 6 => (List.range 4).map (fun j => BitVec.ofNat 72 (fld record (8 * j) 8))
  | 7 => packHalves ((pchAt d i).v ++ (pchAt d i).i)
  | _ => []

/-- Operand words of a selector, at the samples per frame of the image (R339). -/
def operandLen (d : Device) (sel : Nat) : Nat :=
  let n := nSmp d
  match sel / 4096 with
  | 2 => (n + 1) / 2
  | 3 => (n + 1) / 2
  | 5 => (n + 2) / 3
  | 6 => 4
  | 7 => n
  | _ => 0

/-- An address of `len` words that the device chose within its built-in areas (R363). -/
def builtinPlace (d : Device) (x len : Nat) : Nat := d.img.ssLow + x % (0x100000 - d.img.ssLow - len + 1)

/-- ARG of a slot for frame `k`: the address of its data in the operand buffers, 0 where it carries none (R339, R363).
(log 16: DESIGN CHOICE, safe.) -/
def argOf (d : Device) (sel : Nat) (k : BitVec 32) : Nat :=
  let n := operandLen d sel
  if n = 0 then 0 else builtinPlace d (Config.operandAddr (2 * sel + k.toNat % 2)) n

/-- Every operand buffer of the tasks of the table, both parities (R339). -/
def operandBuffers (d : Device) : List (Nat × Nat) :=
  (d.disp.tasks.flatMap (·.ops)).flatMap (fun s =>
    let n := operandLen d s
    if n = 0 then [] else [(argOf d s 0, n), (argOf d s 1, n)])

/-- Place an operand's data in its buffer, where a task names it. -/
def placeOperand (sel : Nat) (k : BitVec 32) (record : List Byte) (d : Device) : Device :=
  if operandLen d sel = 0 || !d.disp.tasks.any (fun t => t.ops.contains sel) then d
  else
    let a := argOf d sel k
    let l := operandWords d sel record
    cleanStore a l.length { d with mem := { d.mem with
      store := msets 0 d.mem.store (l.zipIdx.map (fun p => (a + p.2, p.1))) } }

/-! ## Tokens (R302 to R304) -/

/-- One token to every task that names the operand, with the tasks: a set bit is left, and a token for a frame that is
cancelled is discarded (R303, R304). -/
def setTokens (sel : Nat) (k : BitVec 32) (d : Device) : List Nat × Device :=
  let hits := d.disp.tasks.zipIdx.filter (fun p => !isMd p.1 && (opsOf d p.1).contains sel)
  if !frameOpen d k then ([], forAll hits (fun p d => trace 5 ((homeOf d p.1.flow).getD 0) p.2 k 3 d) d)
  else
    (hits.map (·.2), forAll hits (fun p d =>
      let slots := (opsOf d p.1).zipIdx.filter (fun q => q.1 = sel)
      let old := mget 0 d.disp.store (storeKey p.2 k)
      let new := slots.foldl (fun (b : BitVec 8) q => b ||| (1#8 <<< q.2)) old
      if new = old then d
      else
        let d := trace 1 ((homeOf d p.1.flow).getD 0) p.2 k sel d
        { d with disp := { d.disp with store := mset 0 d.disp.store (storeKey p.2 k) new } }) d)

/-- An operand of frame `k` is delivered, with the bytes of a record. -/
def deliverWith (sel : Nat) (k : BitVec 32) (record : List Byte) (d : Device) : Device :=
  let t := setTokens sel k (if frameOpen d k then placeOperand sel k record d else d)
  releaseSome (t.1.map (·, k)) t.2

/-- An operand of frame `k` is delivered (R302, R303). -/
def deliver (sel : Nat) (k : BitVec 32) (d : Device) : Device := deliverWith sel k [] d

/-- ID of the metadata task of object `o`. -/
def mdTask (d : Device) (o : Nat) : Nat := 2 * nOut d + nObj d + o

/-- A record of an object arrives: one MD task is released at once; beyond the first of a frame it is background work
(R303, R306). Its input frame is the one in which the record arrived. (log 31: DEDUCED, unsafe; log 51: DEDUCED, safe.) -/
def deliverRecord (o : Nat) (p : PendRec) (bytes : List Byte) (e : Env) (d : Device) : Device :=
  let id := mdTask d o
  let runs := mget 0 d.disp.mdRuns o
  let d := { d with disp := { d.disp with mdRuns := mset 0 d.disp.mdRuns o (runs + 1) } }
  let d := enlist id { task := id, frame := e.fn, record := some (o, p), bg := decide (runs ≠ 0) } d
  let d := trace 2 ((homeOf d id).getD 0) id e.fn 0 d
  deliverWith (selRecord o) e.fn bytes d

/-! ## Resident state (R307, R44) -/

/-- Flow `f` restarts without history: its resident state is cleared to zero, a bridge mutes until its ratio lock (R44).
(log 131: DEDUCED, unsafe.) -/
def clearFlow (f : Nat) (e : Env) (d : Device) : Device :=
  match taskAt d f with
  | none => d
  | some t =>
    match t.kind with
    | .front n => modOut n (fun o => { o with dsp := { bulkDepth := o.dsp.bulkDepth }, route := { o.route with fade := none } }) d
    | .back _ => d
    | .ing o => modObj o (fun x => { x with wfs0 := {}, wfs1 := {}, wfsOn := false, route := { x.route with fade := none } }) d
    | .md o => modObj o (fun x => { x with pend := [] }) d
    | .br s => bridgeLoss (s / 2) e d
    | .pr c => modPch c (fun p => { p with svi := 0, sii := 0, winFrames := 0, lpV := {}, lpI := {} }) d
    | .tl => d
    | .custom _ =>
      match homeOf d f with
      | none => d
      | some c =>
        let p := mget 0 d.disp.places f
        modCore c (clearScratch (fun w => decide (p ≤ w) && decide (w < p + t.state))) d

/-- The working area of a core's background task is cleared (R349). -/
def clearWork (core : Nat) (d : Device) : Device :=
  modCore core (clearScratch (fun w => decide (31744 ≤ w) && decide (w < 32704))) d

/-! ## Execution state of a core -/

/-- The execution state after a reset of a core: registers and transfers; FCAUSE is kept (R323, R316). -/
def resetExec (c : CoreState) : CoreState := { c with regs := {}, xfers := [] }

/-- The words that a write transfer sends: scratch words up to an uncorrectable one. -/
def xferWords (c : CoreState) (x : Xfer) : List Word72 :=
  if !x.write then []
  else (((List.range x.count).map (x.scratch + ·)).takeWhile (fun w => !c.bad.contains w)).map (fun w => mget 0 c.scratch w)

/-- The transfers of a task that is gone are the port's to complete, with the words as they stand (R379). -/
def orphanXfers (m : SMap (Option Xfer)) (c : CoreState) : CoreState :=
  { c with dead := c.dead ++ m.filterMap (fun p => p.2.map (fun x => (p.1, { x with data := xferWords c x }))) }

/-- The registers with which a task starts (R323, R325): custom tasks at ENTRY. -/
def startRegs (d : Device) (w : Work) (t : TaskEntry) : CoreRegs :=
  let res := match taskAt d t.flow with | some f => f.state | none => 0
  { sb := if t.background then 31744 else mget 0 d.disp.places t.flow
    sl := if t.background then 960 else res
    tid := w.task, fn := w.frame, pc := BitVec.ofNat 16 t.entry
    arg := ((opsOf d t).take 8).zipIdx.foldl (fun (m : SMap Nat) p => mset 0 m p.2 (argOf d p.1 w.frame)) [] }

/-! ## State copies and core states (R310 to R314) -/

/-- The spare that replaces a core (R311). -/
def replacement (d : Device) (core : Nat) : Option Nat :=
  let spares := (List.range 64).filter (fun c => c ≠ core && (cslotAt d c).st = .spare)
  (spares.find? (fun c => c / 8 = core / 8)).or spares.head?

/-- The available cores. -/
def availCores (d : Device) : List Nat := (List.range 64).filter (fun c => (cslotAt d c).st = .available)

/-- Number of valid triangles, T_VALID (R65). -/
def tValid (d : Device) : Nat := (d.geo.tri.filter (fun p => p.2.valid)).length

/-- What the budget check reads of the device (R33). -/
def checkIn (d : Device) : CheckIn :=
  { img := cfg d, spoke := d.pwr.spoke, scarf := d.xp.app.scarfXp, busAlign := fun n => (outAt d n).app.busAlign
    xoSrc := fun n => xoSrcOf (outAt d n).app n, tValid := tValid d, avail := availCores d
    homes := d.disp.homes, places := d.disp.places }

/-- Flows homed on a core. -/
def flowsOn (d : Device) (core : Nat) : List Nat :=
  (d.disp.homes.filter (fun p => p.2 = core + 1)).map (·.1)

/-- The flows that a gathering copy moves: their tasks wait for its end. -/
def gathered (d : Device) : List Nat :=
  match d.disp.copy with | some j => if j.src.isNone then j.moves.map (·.1) else [] | none => []

/-- A copy may start: the core it empties is idle (R312); no core runs a task of a flow that it gathers (R314). -/
def copyReady (d : Device) (j : CopyJob) : Bool :=
  match j.src with
  | some c => (cslotAt d c).running.isNone
  | none => !d.disp.cores.any (fun p => p.2.running.any (fun w => j.moves.any (fun m => inFlow d m.1 w)))

/-- The copy starts once nothing that it moves runs (R312, R314). -/
def copyStart (e : Env) (d : Device) : Device :=
  match d.disp.copy with
  | none => d
  | some j =>
    if j.started || !copyReady d j then d
    else
      let d := { d with disp := { d.disp with copy := some { j with started := true } } }
      trace 8 (j.src.getD (j.dest.getD 0)) 0xFFFF e.fn (256 * j.dest.getD 0xFF) d

/-- A copy takes the frame's place, or waits for a later frame (R312, R313). -/
def addCopy (j : CopyJob) (e : Env) (d : Device) : Device :=
  if d.disp.copy.isSome then { d with disp := { d.disp with copyNext := d.disp.copyNext ++ [j] } }
  else copyStart e { d with disp := { d.disp with copy := some j } }

/-- The assignment of a leaving core's flows to the other cores (R39): new core and place of each. -/
def scatter (d : Device) (core : Nat) : Check × List (Nat × Nat × Nat) :=
  let c := { checkIn d with avail := (availCores d).filter (· ≠ core) }
  let r := budgetCheck c
  (r, (flowsOn d core).map (fun f => (f, mget 0 r.asg.homes f - 1, mget 0 r.asg.places f)))

/-- A core leaves service: to a replacement, or with its flows scattered (R311, R312, R313). -/
def leaveCore (core : Nat) (uid : Option (BitVec 32)) (fault : Bool) (e : Env) (d : Device) : Device :=
  let why := if fault then 1 else 0
  match replacement d core with
  | some r =>
    let d := setCoreSt core .leaving why e d
    let d := setCoreSt r .available why e d
    addCopy { src := some core, dest := some r, uid := uid, fault := fault
              moves := (flowsOn d core).map (fun f => (f, r, mget 0 d.disp.places f)) } e d
  | none =>
    let s := scatter d core
    let moves := s.2.filter (fun m => mget 0 s.1.asg.homes m.1 ≠ 0)
    let d := setCoreSt core .leaving why e d
    let d := if fault then { d with disp := { d.disp with orphans := d.disp.orphans ++ s.2.map (·.1) } } else d
    addCopy { src := some core, dest := none, uid := uid, fault := fault, moves := moves } e d

/-- Words that a copy writes into a core's scratch. -/
def putScratch (l : List (Nat × Word72)) (hit : Nat → Bool) (c : CoreState) : CoreState :=
  { c with scratch := msets 0 c.scratch l, bad := c.bad.filter (fun w => !hit w), soft := c.soft.filter (fun w => !hit w) }

/-- Move one flow's words between cores; a word that reads uncorrectable is written as zero. -/
def moveFlow (m : Nat × Nat × Nat) (d : Device) : Device :=
  match homeOf d m.1 with
  | none => d
  | some old =>
    let len := match taskAt d m.1 with | some t => t.state | none => 0
    let p := mget 0 d.disp.places m.1
    let src := coreAt d old
    let words := (List.range len).map (fun i =>
      (m.2.2 + i, if src.bad.contains (p + i) then 0 else mget 0 src.scratch (p + i)))
    let d := modCore m.2.1 (putScratch words (fun w => decide (m.2.2 ≤ w) && decide (w < m.2.2 + len))) d
    { d with disp := { d.disp with places := mset 0 d.disp.places m.1 m.2.2 } }

/-- The words of a core's scratch from `lo` on as a copy reads them: an uncorrectable one is zero. -/
def copied (c : CoreState) (lo : Nat) : SMap Word72 :=
  c.scratch.filter (fun p => decide (lo ≤ p.1) && !c.bad.contains p.1)

/-- A core has background work of its own: its working area and context record are in use. -/
def ownsWork (d : Device) (core : Nat) : Bool :=
  (cslotAt d core).suspended.isSome || (cslotAt d core).running.any (·.bg)

/-- The working area and the context record of a core take these words. -/
def putArea (area : SMap Word72) (c : CoreState) : CoreState :=
  putScratch area (fun w => decide (31744 ≤ w)) { c with scratch := mdrop c.scratch (fun w => decide (31744 ≤ w)) }

/-- A suspended task goes from core `s` to core `t` with its context record and its working area (R312, R346); where that core has
background work of its own, it waits there. (log 129: DESIGN CHOICE, unsafe.) -/
def moveSuspended (s t : Nat) (w : Work) (d : Device) : Device :=
  let c := coreAt d s
  let regs := c.saved.getD {}
  let area := copied c 31744
  if ownsWork d t then
    modCore t (fun k => { k with parked := k.parked ++ [{ work := w, regs := regs, xfers := c.sxfers, area := area }] }) d
  else
    modCslot t (fun k => { k with suspended := some w })
      (modCore t (fun k => putArea area { k with saved := some regs, sxfers := c.sxfers }) d)

/-- The suspended tasks of a core that leaves service go to core `t`. -/
def leaveContext (s t : Nat) (d : Device) : Device :=
  let d := match (cslotAt d s).suspended with | some w => moveSuspended s t w d | none => d
  let l := (coreAt d s).parked
  let d := modCore t (fun k => { k with parked := k.parked ++ l }) d
  modCslot s (fun k => { k with suspended := none }) (modCore s (fun k => { k with saved := none, sxfers := [], parked := [] }) d)

/-- The whole scratch of core `s` stands in core `r` (R312): its working area too, where core `r` has no background work. -/
def copyWhole (s r : Nat) (d : Device) : Device :=
  let c := coreAt d s
  let d := when (!ownsWork d r) (modCore r (putArea (copied c 31744))) d
  modCore r (fun k => { k with
    scratch := (copied c 0).filter (fun p => p.1 < 31744) ++ k.scratch.filter (fun p => decide (31744 ≤ p.1))
    bad := k.bad.filter (fun w => decide (31744 ≤ w)), soft := k.soft.filter (fun w => decide (31744 ≤ w)) }) d

/-- Tasks that wait follow their flows to the new homes (R312, R314), in the order of their release. -/
def rehome (flows : List Nat) (d : Device) : Device :=
  let moves := fun (w : Work) => flows.any (fun f => inFlow d f w)
  let ws := d.disp.cores.flatMap (fun p => p.2.ready.filter moves)
  let d := { d with disp := { d.disp with
    cores := mmap {} (fun _ c => { c with ready := c.ready.filter (fun w => !moves w) : CoreSlot }) d.disp.cores } }
  forAll ws (fun w d => match taskAt d w.task with | some t => putWork t.flow w d | none => d) d

/-- The check is run again with the cores as they are (R33, R39, R314). -/
def recheck (d : Device) : Device :=
  let c := budgetCheck (checkIn d)
  { d with img := { d.img with budget := c.words, margins := c.margins.map (uext 32) } }

/-- The end of a copy (R312, R313, R314): scratch, homes and waiting work are at their new cores, the leaving core is OFFLINE;
flows whose state held an uncorrectable word restart. (log 59: DEDUCED, unsafe.) -/
def copyEnd (e : Env) (d : Device) : Device :=
  match d.disp.copy with
  | none => d
  | some j =>
    if !j.started then d
    else
      let hurt := j.moves.filter (fun m =>
        let p := mget 0 d.disp.places m.1
        let len := match taskAt d m.1 with | some t => t.state | none => 0
        (coreAt d ((homeOf d m.1).getD 64)).bad.any (fun w => decide (p ≤ w) && decide (w < p + len)))
      -- the whole scratch to a replacement, or each flow's region to its new home
      let d := match j.src, j.dest with
        | some s, some r => copyWhole s r d
        | _, _ => forAll j.moves moveFlow d
      let d := { d with disp := { d.disp with
        homes := j.moves.foldl (fun (h : SMap Nat) m => mset 0 h m.1 (m.2.1 + 1)) d.disp.homes } }
      let d := rehome (j.moves.map (·.1)) d
      let d := match j.src with
        | none => d
        | some s =>
          -- the suspended task goes to the replacement, or to the lowest core that receives a flow
          let lowest := match j.moves.map (fun m => m.2.1) with | [] => none | x :: r => some (r.foldl min x)
          let d := match j.dest.or lowest with | some t => leaveContext s t d | none => d
          setCoreSt s .offline (if j.fault then 1 else 0) e d
      let d := match j.src, j.dest with
        | none, some r =>
          -- the orphan set is gathered: the check is run again (R314)
          let d := setCoreSt r .available 2 e d
          let d := recheck { d with disp := { d.disp with orphans := [] } }
          if (budgetCheck (checkIn d)).fail.isNone then { d with disp := { d.disp with budgetLost := false } } else d
        | _, _ => recheck d
      let d := { d with disp := { d.disp with copy := none } }
      let d := trace 8 (j.src.getD (j.dest.getD 0)) 0xFFFF e.fn (1 + 256 * j.dest.getD 0xFF) d
      let d := forAll hurt (fun m d => clearFlow m.1 e d) d
      match j.uid with
      | some u => finishUid u 0 [] e d
      | none => d

/-! ## After a task -/

/-- A core that completed or lost its task: a cluster reset takes it, a copy that waited for it starts (R312, R314, R316). -/
def afterTask (core : Nat) (e : Env) (d : Device) : Device :=
  let d := if d.disp.resets.any (fun p => p.1 = core) then
      let d := traceCore core 3 e (modCore core resetExec d)
      let uids := (d.disp.resets.filter (fun p => p.1 = core)).map (·.2)
      let d := { d with disp := { d.disp with resets := d.disp.resets.filter (fun p => p.1 ≠ core) } }
      forAll uids (fun u d => when (!d.disp.resets.any (fun p => p.2 = u)) (finishUid u 0 [] e) d) d
    else d
  copyStart e d

/-- Abort of the task that runs on a core (R307, R313, R349): its transfers are the port's to complete (R379), its flow restarts,
and a job waits for a core again. (log 55: DEDUCED, unsafe.) -/
def abortTask (core : Nat) (e : Env) (d : Device) : Device :=
  match (cslotAt d core).running with
  | none => d
  | some w =>
    let d := trace 5 core w.task w.frame 2 d
    let d := modCslot core (fun c => { c with running := none }) d
    let d := modCore core (fun c => resetExec (orphanXfers c.xfers c)) d
    let d := if w.bg then clearWork core d else d
    let d := match taskAt d w.task, w.job with
      | some t, _ => if w.bg then d else noteCause causeBudget (clearFlow t.flow e d)
      | none, some (.reFront _) => { d with disp := { d.disp with reruns := d.disp.reruns ++ [w] } }
      | none, some (.reBack _) => { d with disp := { d.disp with reruns := d.disp.reruns ++ [w] } }
      | none, some j => enlistJob j e d
      | none, none => d
    afterTask core e (releaseSome (nextOfFlow d w.task w.frame) d)

/-- A core lost through a fault in its scratch (R313, R39): its task is aborted, its scratch copied, CORE_LOST raised;
without a spare the check is run again and BUDGET_LOST set where it fails. A core that is leaving already goes on leaving, its
current task aborted. (log 55: DEDUCED, unsafe.) -/
def loseCore (core : Nat) (e : Env) (d : Device) : Device :=
  let lost := fun (r : Option Nat) (d : Device) => raise 0x3009 0x74 (leBytes 1 core ++ leBytes 1 (r.getD 0xFF)) e d
  let flow := ((cslotAt d core).running.bind (fun w => if w.bg then taskAt d w.task else none)).map (·.flow)
  let abort := fun (d : Device) =>
    let d := abortTask core e d
    match flow with | some f => clearFlow f e d | none => d
  match (cslotAt d core).st with
  | .spare => lost none (setCoreSt core .offline 1 e (abort d))
  | .leaving =>
    let mine := fun (j : CopyJob) => if j.src = some core then { j with fault := true } else j
    let d := { d with disp := { d.disp with copy := d.disp.copy.map mine, copyNext := d.disp.copyNext.map mine } }
    let r := ((d.disp.copy.toList ++ d.disp.copyNext).find? (fun j => j.src = some core)).bind (·.dest)
    lost r (abort d)
  | .available =>
    let d := abort d
    let r := replacement d core
    let d := match r with
      | some _ => d
      | none =>
        match (scatter d core).1.fail with
        | none => d
        | some f =>
          let d := { d with disp := { d.disp with budgetLost := true } }
          raise 0x3003 0x74 (leBytes 1 f.1 ++ leBytes 4 f.2.1) e d
    lost r (leaveCore core none true e d)
  | .offline => d
  | .joining => d

/-- Completion of the task that runs on a core, its result delivered already (R301, R302, R40).
(log 13: DESIGN CHOICE, unsafe.) -/
def completeTask (core : Nat) (e : Env) (d : Device) : Device :=
  match (cslotAt d core).running with
  | none => d
  | some w =>
    let d := modCslot core (fun c => { c with running := none }) d
    let d := modCore core (fun c => { c with regs := {} }) d
    let next := nextOfFlow d w.task w.frame
    let d := if w.discard then releaseSome next (trace 5 core w.task w.frame 1 d)
      else
        let c := freeCycles d
        let d := trace 4 core w.task w.frame c.1 c.2
        if w.job.isSome then d
        else
          let d := { d with disp := { d.disp with finished := d.disp.finished ++ [(w.task, w.frame)] } }
          let t := setTokens (selTask w.task) w.frame d
          releaseSome (t.1.map (·, w.frame) ++ (w.task + 1, w.frame) :: next) t.2
    afterTask core e d

/-! ## Dispatch (R305, R306, R345) -/

/-- A load whose staging is not complete has its spectra to compute (R306). -/
def liveJob (d : Device) (w : Work) : Bool :=
  match w.job with
  | some (.spectra u) => d.cmd.queue.any (fun p => p.uid = u && !p.staged)
  | _ => true

/-- Work that may start: no work of its flow is under way, no earlier record of its object waits, and no copy gathers its flow
(R301, R314). (log 57: DESIGN CHOICE, safe.) -/
def startable (d : Device) (w : Work) : Bool :=
  match taskAt d w.task with
  | none => w.job.isSome && liveJob d w
  | some t =>
    let going := d.disp.cores.flatMap (fun p => p.2.running.toList ++ p.2.suspended.toList)
      ++ d.cores.flatMap (fun p => p.2.parked.map (·.work))
    !going.any (inFlow d t.flow) && !(gathered d).contains t.flow
      && !(isMd t && (allWork d).any (fun x => x.task = w.task && decide (x.rel < w.rel)))

/-- A task starts on a core (R325). -/
def startWork (core : Nat) (w : Work) (d : Device) : Device :=
  let d := modCslot core (fun c => { c with running := some w }) d
  let r : CoreRegs := match taskAt d w.task with
    | some t => startRegs d w t
    | none => { sb := 31744, sl := 960, tid := w.task % 4096, fn := w.frame }
  let d := modCore core (fun c => { c with regs := r, xfers := [] }) d
  let c := freeCycles d
  trace 3 core w.task w.frame c.1 c.2

/-- A suspended task goes on with the registers of its context record: it continues at the interrupted instruction, repeating a
wait; the cycles that went by count in CYC (R323, R325, R346). (log 14: DESIGN CHOICE, safe.) -/
def resumeRegs (d : Device) (r : CoreRegs) : CoreRegs × Device :=
  let c := drawCount d
  ({ r with waitMask := none, doneWait := false, stalled := false, repEdge := false
            cyc := satCyc (r.cyc + Config.freeNat c.1) }, c.2)

/-- A core resumes its suspended task. -/
def resumeWork (core : Nat) (w : Work) (d : Device) : Device :=
  let r := resumeRegs d ((coreAt d core).saved.getD {})
  let d := modCslot core (fun c => { c with suspended := none, running := some w }) r.2
  let d := modCore core (fun s => { s with regs := r.1, saved := none, xfers := s.sxfers, sxfers := [] }) d
  trace 6 core w.task w.frame 1 d

/-- The flow whose home first ran a re-run's task. -/
def reFlow : Work → Nat
  | { job := some (.reFront n), .. } => 2 * n
  | { job := some (.reBack n), .. } => 2 * n
  | _ => 0

/-- The re-run task that a core may take (R235): on a core other than the one that first ran it, on a spare where one is free,
and BACK after FRONT. (log 132: DEDUCED, safe.) -/
def rerunFor (core : Nat) (d : Device) : Option Work :=
  let homes := match d.pair.rerun with
    | some x => (match d.pair.retained.find? (fun r => r.frame = x.dfn) with | some r => r.homes | none => [])
    | none => []
  let spareFree := (List.range 64).any (fun c => (cslotAt d c).st = .spare && (cslotAt d c).running.isNone)
  let going := d.disp.reruns ++ d.disp.cores.flatMap (fun p => coreWork p.2)
  let after := fun (w : Work) => match w.job with
    | some (.reBack n) => !going.any (fun x => x.job = some (.reFront n))
    | _ => true
  if (cslotAt d core).st = .available && spareFree then none
  else d.disp.reruns.find? (fun w => after w && mget 0 homes (reFlow w) ≠ core + 1)

/-- A core with nothing on its own list: its suspended task, one that was moved to it, a re-run task, background work (R306, R312,
R235). (log 129: DESIGN CHOICE, unsafe; log 132: DEDUCED, safe.) -/
def takeBackground (core : Nat) (d : Device) : Device :=
  match (cslotAt d core).suspended, (coreAt d core).parked with
  | some w, _ => resumeWork core w d
  | none, p :: rest =>
    resumeWork core p.work (modCore core (fun s =>
      putArea p.area { s with parked := rest, saved := some p.regs, sxfers := p.xfers }) d)
  | none, [] =>
    match rerunFor core d with
    | some w => startWork core w { d with disp := { d.disp with reruns := d.disp.reruns.filter (fun x => x.rel ≠ w.rel) } }
    | none =>
      match d.disp.background.find? (startable d) with
      | none => d
      | some w =>
        startWork core w { d with disp := { d.disp with background := d.disp.background.filter (fun x => x.rel ≠ w.rel) } }

/-- TASK_DISPATCH: a free core takes the head of its own list; with that list empty it takes background work. A foreground task
suspends a background one at an interruptible boundary. Work that may not start yet is passed over.
(log 56: DEDUCED, safe; log 57: DESIGN CHOICE, safe.) -/
def dispatchCore (core : Nat) (d : Device) : Device :=
  let c := cslotAt d core
  if c.st ≠ .available && c.st ≠ .spare then d
  else
    match c.running, c.ready.find? (startable d) with
    | some w, some r =>
      if !w.bg then d
      else if !interruptible (coreAt d core).regs then d
      else
        let d := modCore core saveContext d
        let d := trace 6 core w.task w.frame 0 d
        let d := modCslot core (fun c => { c with
          suspended := some w, ready := c.ready.filter (fun x => x.rel ≠ r.rel), running := none }) d
        startWork core r d
    | some _, none => d
    | none, some r =>
      startWork core r (modCslot core (fun c => { c with ready := c.ready.filter (fun x => x.rel ≠ r.rel) }) d)
    | none, none => takeBackground core d

/-! ## Cancellation (R40, R304, R307) -/

/-- Work of a task of frame `k`. -/
def ofFrame (k : BitVec 32) (w : Work) : Bool := w.frame = k && w.job.isNone

/-- At tick k + 2: tasks of frame `k` that have not started are cancelled, results of those that run will be discarded,
their store entries are cleared; a flow that waited for its end may go on. (log 31: DEDUCED, unsafe.) -/
def cancelFrame (k : BitVec 32) (d : Device) : Device :=
  let lost := d.disp.cores.flatMap (fun p => (p.2.ready.filter (ofFrame k)).map (fun w => (p.1, w)))
  let bg := d.disp.background.filter (ofFrame k)
  let keep := fun (w : Work) => !ofFrame k w
  let mark : Work → Work := fun w => if ofFrame k w then { w with discard := true } else w
  let d := { d with
    disp := { d.disp with
      cancelled := some k
      finished := d.disp.finished.filter (fun p => p.2 ≠ k)
      cores := mmap {} (fun _ c => { c with ready := c.ready.filter keep, running := c.running.map mark
                                            suspended := c.suspended.map mark : CoreSlot }) d.disp.cores
      background := d.disp.background.filter (fun w => keep w && liveJob d w)
      store := d.disp.store.filter (fun p => p.1 % 2 ≠ k.toNat % 2) }
    cores := mmap {} (fun _ c => { c with parked := c.parked.map (fun p => { p with work := mark p.work }) : CoreState }) d.cores }
  let d := forAll lost (fun p d => trace 5 p.1 p.2.task p.2.frame 0 d) d
  let d := forAll bg (fun w d => trace 5 0 w.task w.frame 0 d) d
  releaseSome (d.disp.store.map (fun p => (p.1 / 2, k + 1))) d

/-- At tick k + 3: foreground tasks of frame `k` that still run are aborted. -/
def abortHung (k : BitVec 32) (e : Env) (d : Device) : Device :=
  forAll (List.range 64) (fun c d =>
    match (cslotAt d c).running with
    | some w => if w.frame = k && !w.bg then abortTask c e d else d
    | none => d) d

/-- Action 5 of R21: TICK tokens for the input frame `k` just sealed; bridge tasks run for frame `k + 1`, and they alone at the
first frame's tick (R302). -/
def releaseTick (k : BitVec 32) (telem first : Bool) (d : Device) : Device :=
  let d := { d with disp := { d.disp with mdRuns := [] } }
  let isBr := fun (t : TaskEntry) => match t.kind with | .br _ => true | _ => false
  let hits := d.disp.tasks.zipIdx.filter (fun p => p.1.ops.contains selTick && (!first || isBr p.1) && (match p.1.kind with
    | .tl => telem
    | _ => true))
  let frameOf : TaskEntry → BitVec 32 := fun t => if isBr t then k + 1 else k
  let d := forAll hits (fun p d =>
    let key := storeKey p.2 (frameOf p.1)
    let old := mget 0 d.disp.store key
    let new := (p.1.ops.zipIdx.filter (fun q => q.1 = selTick)).foldl (fun (b : BitVec 8) q => b ||| (1#8 <<< q.2)) old
    if new = old then d
    else
      let d := trace 1 ((homeOf d p.1.flow).getD 0) p.2 (frameOf p.1) selTick d
      { d with disp := { d.disp with store := mset 0 d.disp.store key new } }) d
  releaseSome (hits.map (fun p => (p.2, frameOf p.1))) d

/-! ## Resets (R315, R316) -/

/-- Function reset of the dispatcher at tick AF: what is released completes in the frame, and the reset clears before the release
of tick AF + 1. (log 133: DEDUCED, unsafe.) -/
def resetDispatcher (e : Env) (d : Device) : Device := { d with disp := { d.disp with resetAt := some (e.fn + 1) } }

/-- The matching store, the ready lists and the trace buffer are cleared and the table rebuilt (R315). -/
def clearDispatcher (e : Env) (d : Device) : Device :=
  if d.disp.resetAt ≠ some e.fn then d
  else
    { d with disp := { d.disp with
      tasks := buildTable (cfg d) d.pwr.spoke (fun n => (outAt d n).app.busAlign)
      cores := mmap {} (fun _ c => { c with ready := [] : CoreSlot }) d.disp.cores
      store := [], trace := { d.disp.trace with buf := [] }, resetAt := none } }

/-- Function reset of cluster `k` (R316): idle cores at once, the others when their task completes.
(log 67: DEDUCED, unsafe.) -/
def resetCluster (k : Nat) (uid : BitVec 32) (e : Env) (d : Device) : Device :=
  forAll ((List.range 8).map (8 * k + ·)) (fun c d =>
    if (cslotAt d c).running.isSome then { d with disp := { d.disp with resets := d.disp.resets ++ [(c, uid)] } }
    else traceCore c 3 e (modCore c resetExec d)) d

/-- The start of rendering (R308, R311): the full assignment, spares set, lists empty. -/
def startDispatch (a : Assign) (d : Device) : Device :=
  { d with disp := { d.disp with
    tasks := buildTable (cfg d) d.pwr.spoke (fun n => (outAt d n).app.busAlign)
    homes := a.homes, places := a.places, store := [], finished := [], background := [], reruns := [], mdRuns := [] } }

/-- TASK_DISPATCH: a free core takes the head of its list (R305). -/
def execTaskDispatch (core : Nat) (s : State) : Host.Outcome State Fault Refusal :=
  act (fun _ d => when (core < 64) (dispatchCore core) d) s

/-- COPY_END: end of a state copy (R312). -/
def execCopyEnd (s : State) : Host.Outcome State Fault Refusal := act copyEnd s

end Sys2Proof.Machine
end

