-- ==== Sys2Proof/Machine/Mem.lean ====
section
/-! DEFINITION. SRAM errors and the patrol test (R356, R364 to R368), and the DRAM channels (chapter 13): address map,
reads and writes with ECC, refresh, maintenance, command parity, self-refresh, error logs. -/
namespace Sys2Proof.Machine

/-! ## SRAM errors (R356, R512) -/

/-- An uncorrectable bay word: counted, its address kept, a cause of withdrawal (R113, R240). -/
def ueBay (key : Nat) (d : Device) : Device :=
  noteCause causeEcc { d with mem := { d.mem with
    bayUe := inc32 d.mem.bayUe, bayAddr := BitVec.ofNat 32 key } }

/-- An uncorrectable control entry (R113). -/
def ueEntry (key : Nat) (d : Device) : Device :=
  noteCause causeEcc { d with mem := { d.mem with
    bayUe := inc32 d.mem.bayUe
    bayAddr := BitVec.ofNat 32 (pow2 31 + (key / 32768) * pow2 19 + key % 32768) } }

/-- An uncorrectable scratch word. -/
def ueScratch (core w : Nat) (d : Device) : Device :=
  noteCause causeEcc { d with mem := { d.mem with
    scrUe := inc32 d.mem.scrUe, scrAddr := BitVec.ofNat 32 (core * pow2 15 + w) } }

/-- An uncorrectable shared-store word. -/
def ueStore (w : Nat) (d : Device) : Device :=
  noteCause causeEcc { d with mem := { d.mem with ssUe := inc32 d.mem.ssUe, ssAddr := BitVec.ofNat 32 w } }

/-- Append where absent. -/
def addNew [DecidableEq α] (x : α) (l : List α) : List α := if l.contains x then l else l ++ [x]

/-- A bit error strikes. A second one in a word makes it uncorrectable. -/
def strike (u : Upset) (d : Device) : Device :=
  let double := u.double || (match u.place with
    | .dram ch w => (dchAt d ch).soft.contains w || (dchAt d ch).wb.contains w
    | .scratch c w => (coreAt d c).soft.contains w
    | p => d.mem.wb.contains p)
  if !double then
    match u.place with
    | .dram ch w => modDch ch (fun c => { c with soft := addNew w c.soft }) d
    | .scratch c w => modCore c (fun s => { s with soft := addNew w s.soft }) d
    | p => { d with mem := { d.mem with wb := addNew p d.mem.wb } }
  else
    let d := { d with mem := { d.mem with wb := d.mem.wb.filter (fun p => p ≠ u.place) } }
    match u.place with
    | .bay b w => { d with xp := { d.xp with badWords := addNew (bayKey b w) d.xp.badWords } }
    | .entry b n => { d with xp := { d.xp with badEntries := addNew (32768 * b + n) d.xp.badEntries } }
    | .scratch c w => modCore c (fun s => { s with bad := addNew w s.bad, soft := s.soft.filter (· ≠ w) }) d
    | .imem cl a => { d with mem := { d.mem with imemBad := addNew (65536 * cl + a) d.mem.imemBad } }
    | .store w => { d with mem := { d.mem with bad := addNew w d.mem.bad } }
    | .dram ch w => modDch ch (fun c => { c with soft := c.soft.filter (· ≠ w), wb := c.wb.filter (· ≠ w),
                                                 bad := addNew w c.bad }) d

/-- The write-back of a corrected SRAM word: the error is counted (R356); that of an instruction word is silent (R321).
(log 58: DEDUCED, unsafe.) -/
def writeBack (p : UpsetAt) (d : Device) : Device :=
  match p with
  | .scratch c w =>
    if !(coreAt d c).soft.contains w then d
    else modCore c (fun s => { s with soft := s.soft.filter (· ≠ w) }) { d with mem := { d.mem with scrCe := inc32 d.mem.scrCe } }
  | _ =>
    if !d.mem.wb.contains p then d
    else
      let m := { d.mem with wb := d.mem.wb.filter (· ≠ p) }
      { d with mem := match p with
        | .bay _ _ => { m with bayCe := inc32 m.bayCe }
        | .entry _ _ => { m with bayCe := inc32 m.bayCe }
        | .store _ => { m with ssCe := inc32 m.ssCe }
        | _ => m }

/-! ## The patrol test (R364 to R368) -/

/-- The memory of a patrol region: bays, cores, shared store. -/
inductive Region where
  | bay (b : Nat) | core (c : Nat) | store
deriving DecidableEq, Repr

/-- Region index to memory (R364). -/
def regionOf (i : Nat) : Region :=
  if i < 131072 then .bay (i / 8192) else if i < 163840 then .core ((i - 131072) / 512) else .store

/-- Words of a region, or of the spare that stands for it, hold this place. -/
def regionHas (d : Device) (i : Nat) : UpsetAt → Bool
  | .bay b w => i < 131072 && bayKey b w / 64 = bayPhys d (64 * i) / 64
  | .store w => 163840 ≤ i && w / 64 = i - 163840
  | _ => false

/-- The words of a region (R364). -/
def regionWords (d : Device) (i : Nat) : List Word72 :=
  match regionOf i with
  | .bay _ => (List.range 64).map (fun j => mget 0 d.xp.words (bayPhys d (64 * i) + j))
  | .core c => (List.range 64).map (fun j => mget 0 (coreAt d c).scratch ((i - 131072) % 512 * 64 + j))
  | .store => (List.range 64).map (fun j => mget 0 d.mem.store ((i - 163840) * 64 + j))

/-- The memory instance whose shadow buffer a region uses (R355). -/
def shadowOf (i : Nat) : Nat :=
  match regionOf i with | .bay b => b | .core c => 16 + c | .store => 80

/-- Region `i` of a bay moves to spare `s` with the words that the shadow holds, poisoned ones with bad code (R366, R367). -/
def remapTo (i b s : Nat) (ws : List Word72) (d : Device) : Device :=
  let old := bayPhys d (64 * i)
  let new := 8388608 + 2048 * b + 64 * s
  let bad := ((List.range 64).filter (fun j => d.xp.badWords.contains (old + j))).map (new + ·)
  let clean := d.xp.badWords.filter (fun k => k < new || new + 64 ≤ k)
  { d with
    xp := { d.xp with words := msets 0 d.xp.words (ws.zipIdx.map (fun p => (new + p.2, p.1))), badWords := clean ++ bad }
    mem := { d.mem with used := mset 0 d.mem.used b (mget 0 d.mem.used b + 1), remap := mset 0 d.mem.remap i (s + 1) } }

/-- The region that the patrol takes from position `i`: regions of OFFLINE cores are skipped (R364). -/
def nextRegion (d : Device) (i : Nat) : Nat :=
  foldN 64 (fun j _ =>
    match regionOf j with
    | .core c => if (cslotAt d c).st = .offline then (131072 + 512 * (c + 1)) % 180224 else j
    | _ => j) (i % 180224)

/-- The patrol test of one region at a tick; `failed` says that its March test reads wrong. It stops in the quiet state
(R487). (log 58: DEDUCED, unsafe.) -/
def patrol (failed : Bool) (e : Env) (d : Device) : Device :=
  if !d.mem.patrolEn || d.pwr.quiet then d
  else
    let i := nextRegion d d.mem.pos
    -- the restore writes corrected words with fresh code
    let d := forAll (d.mem.wb.filter (regionHas d i)) writeBack d
    let d := match regionOf i with
      | .core c => forAll ((coreAt d c).soft.filter (fun w => w / 64 = (i - 131072) % 512)) (fun w => writeBack (.scratch c w)) d
      | _ => d
    let ws := regionWords d i
    let d := { d with mem := { d.mem with
      pos := (i + 1) % 180224
      shadow := msets 0 d.mem.shadow (ws.zipIdx.map (fun p => (64 * shadowOf i + p.2, p.1))) } }
    if !failed then d
    else
      let d := { d with mem := { d.mem with fails := inc32 d.mem.fails, lastFail := i } }
      match regionOf i with
      | .bay b =>
        match ((List.range 32).filter (fun s => !d.mem.badSpares.contains (b, s)))[mget 0 d.mem.used b]? with
        | some s => remapTo i b s ws d
        | none => noteCause causePatrol d
      | .core c =>
        let d := modCslot c (fun s => { s with unrepaired := true }) d
        loseCore c e d
      | .store => noteCause causePatrol d

/-! ## DRAM addresses (R384, R385) -/

/-- Channel and channel byte address of a physical byte address; none beyond the installed memory. -/
def dramMap (i : Image) (pa : Nat) : Option (Nat × Nat) :=
  let c0 := dramCap (nth 0 i.dcfg 0)
  let c1 := dramCap (nth 0 i.dcfg 1)
  if pa ≥ c0 + c1 then none
  else if !i.mapConcat then some (pa / 256 % 2, pa / 512 * 256 + pa % 256)
  else if pa < c0 then some (0, pa) else some (1, pa - c0)

/-- Physical byte address of a channel byte address. -/
def dramUnmap (i : Image) (ch ca : Nat) : Nat :=
  if !i.mapConcat then ca / 256 * 512 + ch * 256 + ca % 256
  else if ch = 0 then ca else dramCap (nth 0 i.dcfg 0) + ca

/-- Ranks of a channel configuration. -/
def dramRanks (v : Nat) : Nat := if v = 1 || v = 3 then 2 else 1

/-- Bank of a channel byte address as rank × 16 + bank group × 4 + bank, and its row (R385). -/
def dramBank (cfgv ca : Nat) : Nat × Nat :=
  let bg := ca / 64 % 4
  let bank := ca / pow2 15 % 4
  if dramRanks cfgv = 2 then ((ca / pow2 17 % 2) * 16 + bg * 4 + bank, ca / pow2 18)
  else (bg * 4 + bank, ca / pow2 17)

/-- The fields of a location for the error log (R398): rank, bank group, bank, row, column. -/
def dramLoc (cfgv ca : Nat) : Nat × Nat × Nat × Nat × Nat :=
  let b := dramBank cfgv ca
  (b.1 / 16, b.1 / 4 % 4, b.1 % 4, b.2, (ca / 8 % 8) + 8 * (ca / 256 % 128))

/-! ## Error log (R398) -/

/-- A new entry of a channel's error log: counted by KIND; a corrected error never displaces another kind. -/
def dramLog (ch kind ca master : Nat) (e : Env) (d : Device) : Device :=
  modDch ch (fun c =>
    let c := { c with cnt := mmod 0 c.cnt kind inc32 }
    let slot := c.seq % 16
    let old := c.log[slot]?
    if kind = 0 && old.any (fun x => x.kind ≠ 0) then c
    else
      let n : DLogEntry := { kind := kind, ca := ca, master := master, fn := e.fn, seq := c.seq + 1 }
      { c with seq := c.seq + 1, log := if slot < c.log.length then c.log.set slot n else c.log ++ [n] }) d

/-- An uncorrectable DRAM word was read: logged, a cause of withdrawal (R395, R240). -/
def dramUe (ch ca master : Nat) (e : Env) (d : Device) : Device := noteCause causeEcc (dramLog ch 1 ca master e d)

/-! ## Contents -/

/-- The outputs that hold a convolution slot, in order, and the size of a slot (R160). -/
def convOuts (i : Image) : List Nat := (List.range i.nOut).filter (fun n => (outStat i n).convMax > 0)
def slotBytes (i : Image) : Nat := if i.cveLong then 0x800000 else 0x400000

/-- The output whose convolution slot holds a byte address. -/
def convSlotAt (i : Image) (pa : Nat) : Option Nat :=
  if pa < i.cveBase then none else (convOuts i)[(pa - i.cveBase) / slotBytes i]?

/-- The values of a convolution slot (R158, R160): the spectra of both banks, the input spectra, the pending z values. -/
def slotValues (d : Device) (n : Nat) : List F36 :=
  let o := outAt d n
  let ns := nSmp d
  let rd : Int → F36 := fun g => mget 0 o.convHist (histKey ns g)
  let gs := convGroups (outStat (cfg d) n).convMax (cfg d).cveLong
  let flat := fun (l : List (F36 × F36)) => l.flatMap (fun c => [c.1, c.2])
  let bank := fun (taps : List F36) => gs.flatMap (fun g => (List.range g.u).flatMap (fun j =>
    flat (spectrum g.k ((List.range g.s).map (fun i => nth 0 taps (g.o + j * g.s + i))))))
  let last := fun (g : ConvGroup) => Int.fdiv (o.convEnd : Int) g.s - 1
  let xs := gs.flatMap (fun g => (List.range g.u).flatMap (fun (j : Nat) =>
    flat (spectrum g.k ((List.range g.s).map (fun (i : Nat) => rd ((last g - j) * g.s + i))))))
  let zs := gs.flatMap (fun g => convZ g o.app.taps rd (last g - 1) ++ convZ g o.app.taps rd (last g))
  bank o.app.taps ++ bank o.stgTaps ++ xs ++ zs

/-- Byte `off` of a convolution slot: 16 F36 values to 72 bytes (R160). -/
def slotByte (d : Device) (n off : Nat) : Byte :=
  let l := slotValues d n
  let v := (List.range 16).map (fun j => nth 0 l (Config.slotLayout (off / 72 * 16 + j)))
  BitVec.ofNat 8 (v.foldr (fun x a => a * pow2 36 + x.toNat) 0 / pow2 (8 * (off % 72)))

/-- What an engine's area of DRAM shows at a byte, where one holds the address (R93, R160, R167, R383): the byte, and the bits of
it that the area's values take: object lines in 4-byte containers, convolution slots, output lines in 8-byte containers, DIRECT
records. (log 69: DEDUCED, unsafe; log 134: DESIGN CHOICE, safe.) -/
def areaByte (d : Device) (pa : Nat) : Option (Byte × Byte) :=
  let i := cfg d
  let inA := fun (base len : Nat) => decide (base ≤ pa) && decide (pa < base + len)
  let mask : Nat → Byte := fun j => if j < 4 then 0xFF#8 else if j = 4 then 0x0F#8 else 0#8
  if d.img.img.isNone then none
  else if d.dram.lines && i.objBulkEn && inA i.objBulkBase (i.nObj * 1048640) then
    let q := pa - i.objBulkBase
    some (nth 0 (leBytes 4 (256 * uext 24 (mget 0 (objAt d (q / 1048640)).bulkLine (q % 1048640 / 4)))) (q % 4),
      if q % 4 = 0 then 0#8 else 0xFF#8)
  else if d.dram.lines && i.outBulkEn && inA i.outBulkBase (i.nOut * 2097280) then
    let q := pa - i.outBulkBase
    some (nth 0 (f36Field (mget 0 (outAt d (q / 2097280)).bulkLine (q % 2097280 / 8))) (q % 8), mask (q % 8))
  else if (List.range i.nObj).any (mayDirect i) && inA i.directBase (16 * i.nOut * i.nObj) then
    let q := pa - i.directBase
    let o := q / (16 * i.nOut)
    let n := q % (16 * i.nOut) / 16
    let r := mget (0, 0) d.geo.direct (512 * o + n)
    some (nth 0 (f36Field r.1 ++ leBytes 4 r.2 ++ zeros 4) (q % 16),
      if q % 16 < 8 then mask (q % 16) else if q % 16 < 12 then 0xFF#8 else 0#8)
  else match (if d.dram.lines && !d.dram.foreign.contains pa then convSlotAt i pa else none) with
    | some n => some (slotByte d n ((pa - i.cveBase) % slotBytes i), 0xFF#8)
    | none => none

/-- The byte that DRAM holds at an address. -/
def dramByte (d : Device) (pa : Nat) : Byte :=
  let b := mget 0 d.dram.bytes pa
  match areaByte d pa with
  | some (v, m) => (v &&& m) ||| (b &&& ~~~m)
  | none => b

/-- A DRAM word `w` within an engine's area takes the value `v`. -/
def areaPut (w v : Nat) (d : Device) : Device :=
  let i := cfg d
  let pa := 8 * w
  let inA := fun (base len : Nat) => decide (base ≤ pa) && decide (pa < base + len)
  if d.img.img.isNone then d
  else if d.dram.lines && i.objBulkEn && inA i.objBulkBase (i.nObj * 1048640) then
    let q := pa - i.objBulkBase
    let k := q % 1048640 / 4
    modObj (q / 1048640) (fun x => { x with
      bulkLine := msets 0 x.bulkLine [(k, sext 24 (v / 256 % pow2 24)), (k + 1, sext 24 (v / pow2 40 % pow2 24))] }) d
  else if d.dram.lines && i.outBulkEn && inA i.outBulkBase (i.nOut * 2097280) then
    let q := pa - i.outBulkBase
    modOut (q / 2097280) (fun x => { x with
      bulkLine := mset 0 x.bulkLine (q % 2097280 / 8) (BitVec.ofNat 36 (v % pow2 36)) }) d
  else if (List.range i.nObj).any (mayDirect i) && inA i.directBase (16 * i.nOut * i.nObj) then
    let q := pa - i.directBase
    let k := 512 * (q / (16 * i.nOut)) + q % (16 * i.nOut) / 16
    let r := mget (0, 0) d.geo.direct k
    let r := if q % 16 = 0 then (BitVec.ofNat 36 (v % pow2 36), r.2) else (r.1, v % pow2 32)
    { d with geo := { d.geo with direct := mset (0, 0) d.geo.direct k r } }
  else match (if d.dram.lines then convSlotAt i pa else none) with
    | none => d
    | some n =>
      let cells := (List.range 8).map (pa + ·)
      modOut n (fun x => { x with slotLost := true }) { d with dram := { d.dram with
        bytes := msets 0 d.dram.bytes (leBytes 8 v |>.zipIdx.map (fun p => (pa + p.2, p.1)))
        foreign := cells ++ d.dram.foreign.filter (fun x => !cells.contains x) } }

/-- The engines' areas of DRAM become plain contents of it: an engine that is reset leaves them (R388). -/
def settleDram (d : Device) : Device :=
  let i := cfg d
  let line := fun (base len size : Nat) (ks : List Nat) => ks.filterMap (fun k =>
    if k < len then some ((List.range size).map (fun j => base + size * k + j)) else none)
  let objs := if i.objBulkEn then (List.range i.nObj).flatMap (fun o =>
    (line (i.objBulkBase + o * 1048640) 262160 4 ((objAt d o).bulkLine.map (·.1))).flatten) else []
  let outs := if i.outBulkEn then (List.range i.nOut).flatMap (fun n =>
    (line (i.outBulkBase + n * 2097280) 262160 8 ((outAt d n).bulkLine.map (·.1))).flatten) else []
  let slots := (convOuts i).zipIdx.flatMap (fun p => (List.range (slotBytes i)).map (fun j => i.cveBase + p.2 * slotBytes i + j))
  let dirs := d.geo.direct.flatMap (fun p =>
    (List.range 16).map (fun j => i.directBase + 16 * (i.nOut * (p.1 / 512) + p.1 % 512) + j))
  let at_ := if d.img.img.isNone then [] else (if d.dram.lines then objs ++ outs ++ slots else []) ++ dirs
  { d with dram := { d.dram with
    bytes := msets 0 d.dram.bytes (at_.map (fun a => (a, dramByte d a))), lines := false, foreign := [] } }

/-- The engines' lines and slots start without history (R44): their areas of DRAM hold what the engines hold from now on. -/
def startLines (d : Device) : Device :=
  let i := cfg d
  let inA := fun (pa base len : Nat) => decide (base ≤ pa) && decide (pa < base + len)
  let hit := fun (pa : Nat) =>
    (i.objBulkEn && inA pa i.objBulkBase (i.nObj * 1048640)) || (i.outBulkEn && inA pa i.outBulkBase (i.nOut * 2097280))
  { d with dram := { d.dram with bytes := mdrop d.dram.bytes hit, lines := true, foreign := [] } }

/-- An engine has written a range of its lines whole: what stood beside the samples is zero (R60, R93). -/
def wipePads (a len : Nat) (d : Device) : Device :=
  if !d.dram.bytes.any (fun (c : Host.Cell) => decide (a ≤ c.1) && decide (c.1 < a + len)) then d
  else { d with dram := { d.dram with bytes := mdrop d.dram.bytes (fun x => decide (a ≤ x) && decide (x < a + len)) } }

/-- `n` samples of `size` bytes have been written from count `cur` into the bulk-delay line at `base` (R93, R167). -/
def wipeLine (base size cur n : Nat) (d : Device) : Device :=
  forAll (List.range n) (fun i d => wipePads (base + size * ((cur + i) % 262160)) size d) d

/-- The ingress stage and BACK have written a frame into the line of an object, of an output, at count `cur`. -/
def wipeObjLine (o cur : Nat) (d : Device) : Device :=
  when (cfg d).objBulkEn (wipeLine ((cfg d).objBulkBase + o * 1048640) 4 cur (nSmp d)) d
def wipeOutLine (n cur : Nat) (d : Device) : Device :=
  when (cfg d).outBulkEn (wipeLine ((cfg d).outBulkBase + n * 2097280) 8 cur (nSmp d)) d

/-- Bits [63:0] of DRAM word `w` (R370). (log 69: DEDUCED, unsafe.) -/
def dramWord (d : Device) (w : Nat) : Nat := leNat ((List.range 8).map (fun j => dramByte d (8 * w + j)))

/-- What touching a burst does to its bank and the retry buffer (R389, R390, R397): the row of another access is precharged, the
burst's own is activated where it is not open, and with IDLE_NS = 0 it closes. -/
def dramTouch (ch ca kind : Nat) (d : Device) : Device :=
  let i := cfg d
  let b := dramBank (nth 0 i.dcfg ch) ca
  modDch ch (fun c =>
    let row := mget none c.rows b.1
    let shut := if row.isSome && row ≠ some b.2 then [4 * pow2 40 + ca] else []
    let act := if row = some b.2 then [] else [3 * pow2 40 + ca]
    let close := if i.idleNs = 0 then [4 * pow2 40 + ca] else []
    { c with rows := mset none c.rows b.1 (if i.idleNs = 0 then none else some b.2)
             retry := (close ++ (kind * pow2 40 + ca) :: act ++ shut ++ c.retry).take 16 }) d

/-- A read of channel word `cw` corrects an error of one bit (R395): the correction is logged, and the word waits for its
write-back. -/
def dramFix (ch cw master : Nat) (e : Env) (d : Device) : Device :=
  let c := dchAt d ch
  if !c.soft.contains cw && !c.wb.contains cw then d
  else modDch ch (fun c => { c with soft := c.soft.filter (· ≠ cw), wb := addNew cw c.wb }) (dramLog ch 0 (8 * cw) master e d)

/-- A channel serves: initialised, not failed. -/
def dramUsable (d : Device) (ch : Nat) : Bool := (dchAt d ch).ready && (dchAt d ch).failed.isNone

/-- Read DRAM word `w` for a master: data, whether the beat carries SLVERR, whether it is beyond the installed memory. `touch`
marks the first word of a BL8 burst, which reaches the bank (R389). -/
def dramRead (touch : Bool) (w master : Nat) (e : Env) (d : Device) : Nat × Bool × Bool × Device :=
  match dramMap (cfg d) (8 * w) with
  | none => (0, false, true, d)
  | some (ch, ca) =>
    if !dramUsable d ch then (0, true, false, d)
    else
      let cw := ca / 8
      let d := when touch (dramTouch ch (ca / 64 * 64) 0) d
      let c := dchAt d ch
      if c.bad.contains cw then (dramWord d w, true, false, dramUe ch ca master e d)
      else (dramWord d w, false, false, dramFix ch cw master e d)

/-- Write bytes of DRAM word `w` under strobes 0 to 7 (R391): a partial write reads, merges and writes. -/
def dramWrite (touch : Bool) (w data : Nat) (strobe : BitVec 8) (master : Nat) (e : Env) (d : Device) : Bool × Bool × Device :=
  match dramMap (cfg d) (8 * w) with
  | none => (false, true, d)
  | some (ch, ca) =>
    if !dramUsable d ch then (true, false, d)
    else if strobe = 0 then (false, false, d)
    else
      let cw := ca / 8
      let d := when touch (dramTouch ch (ca / 64 * 64) 1) d
      if strobe ≠ 0xFF#8 && (dchAt d ch).bad.contains cw then (true, false, dramUe ch ca master e d)
      else
        let d := when (strobe ≠ 0xFF#8) (dramFix ch cw master e) d
        let cells := ((List.range 8).filter (fun j => strobe.getLsbD j)).map (fun j =>
          (8 * w + j, BitVec.ofNat 8 (data / pow2 (8 * j))))
        let old := dramWord d w
        let d := { d with dram := { d.dram with bytes := msets 0 d.dram.bytes cells } }
        let new := leNat ((List.range 8).map (fun j =>
          BitVec.ofNat 8 ((if strobe.getLsbD j then data else old) / pow2 (8 * j))))
        let d := areaPut w new d
        (false, false, modDch ch (fun c => { c with
          bad := c.bad.filter (· ≠ cw), soft := c.soft.filter (· ≠ cw), wb := c.wb.filter (· ≠ cw) }) d)

/-! ## Refresh and maintenance (R392 to R396) -/

/-- A request waits or a transaction is in service at a channel's target. -/
def dramBusy (d : Device) (ch : Nat) : Bool :=
  (mget none d.xbar.serving ch).isSome || !(mget [] d.xbar.waiting ch).isEmpty

/-- A real-time request waits at a channel (R390), or a transaction is in service. -/
def dramHeld (d : Device) (ch : Nat) : Bool :=
  (mget none d.xbar.serving ch).isSome || (mget [] d.xbar.waiting ch).any (fun p => decide ((cfg d).rtQos ≤ p.qos))

/-- The scrub reads one 64-byte block (R396). (log 61: DEDUCED, safe.) -/
def scrubBlock (ch : Nat) (e : Env) (d : Device) : Device :=
  let cap := dramCap (nth 0 (cfg d).dcfg ch)
  let at_ := (dchAt d ch).scrub
  let d := dramTouch ch at_ 0 d
  let words := (List.range 8).map (fun j => at_ / 8 + j)
  let d := forAll words (fun w d => if (dchAt d ch).bad.contains w then dramUe ch (8 * w) 31 e d else dramFix ch w 31 e d) d
  modDch ch (fun c => { c with scrub := if cap = 0 then 0 else (at_ + 64) % cap }) d

/-- Issue one all-bank refresh: every row closes. (log 61: DEDUCED, safe.) (log 116: DESIGN CHOICE, safe.) -/
def refresh (c : DramChan) : DramChan := { c with rows := [], retry := (2 * pow2 40 :: c.retry).take 16 }

/-- REFRESH_DUE (R393): an idle channel issues it and repays what it owes; a busy one postpones it, at most eight; at
eight one goes out at the next boundary. With the channel idle and nothing owed the scrub reads its block.
(log 61: DEDUCED, safe.) -/
def refreshDue (ch : Nat) (e : Env) (d : Device) : Device :=
  let c := dchAt d ch
  if !dramUsable d ch || c.selfRef = 1 then d
  else if !dramBusy d ch then
    let d := modDch ch (fun c => { refresh c with owed := 0 }) d
    when (cfg d).scrubEn (scrubBlock ch e) d
  else if dramHeld d ch && c.owed < 8 then modDch ch (fun c => { c with owed := c.owed + 1 }) d
  else if c.owed < 8 then modDch ch (fun c => { refresh c with owed := c.owed }) d
  else d

/-- The boundary of a transaction: at eight owed refreshes one goes out (R393); a successful transaction ends an alert
(R397). -/
def dramBoundary (ch : Nat) (d : Device) : Device :=
  modDch ch (fun c =>
    let c := { c with replays := 0, failNow := false }
    if c.owed ≥ 8 then { refresh c with owed := c.owed - 1 } else c) d

/-- Maintenance starts with no request pending, no transaction in service and nothing owed (R394).
(log 68: DEDUCED, safe.) -/
def dramIdle (d : Device) (ch : Nat) : Bool :=
  dramUsable d ch && !dramBusy d ch && (dchAt d ch).owed = 0 && (dchAt d ch).selfRef ≠ 1

/-- DRAM_TEMP_READ (R392), taken in an idle moment (R394): a hot reading halves the interval; two cool ones in a row
restore it. (log 68: DEDUCED, safe.) -/
def tempRead (ch : Nat) (hot : Bool) (d : Device) : Device :=
  if !dramIdle d ch then d
  else modDch ch (fun c =>
    if hot then { c with hot := true, cool := 0, hotCnt := inc32 c.hotCnt }
    else { c with cool := min 2 (c.cool + 1), hot := if c.cool + 1 ≥ 2 then false else c.hot }) d

/-! ## Command parity (R397) -/

/-- Both channels ready: DRAM_READY (R386, R387). -/
def dramReady (d : Device) : Bool := dramUsable d 0 && dramUsable d 1

/-- ALERT_PARITY: the controller waits for ALERT_N; after three failed replays the transaction in service fails. -/
def alertParity (ch : Nat) (e : Env) (d : Device) : Device :=
  if !dramUsable d ch then d
  else if (dchAt d ch).replays < 3 then modDch ch (fun c => { c with alert := true }) d
  else
    let ca := match (dchAt d ch).retry with | x :: _ => x % pow2 40 | [] => 0
    let master := match mget none d.xbar.serving ch with | some p => p.req.master | none => 31
    let d := dramLog ch 2 ca master e d
    noteCause causeEcc (modDch ch (fun c => { c with alert := false, replays := 0, failNow := true }) d)

/-- ALERT_N_HIGH: the components have precharged every bank; the commands are replayed. -/
def alertHigh (ch : Nat) (d : Device) : Device :=
  if !(dchAt d ch).alert then d
  else modDch ch (fun c => { c with alert := false, rows := [], replays := c.replays + 1,
                                    replayCnt := inc32 c.replayCnt }) d

/-- ALERT_STUCK: the channel is failed, and a running device withdraws; no lane is concerned, so the reported lane is
free. (log 17: DESIGN CHOICE, safe.) -/
def alertStuck (ch : Nat) (e : Env) (d : Device) : Device :=
  if !(dchAt d ch).alert || !dramUsable d ch then d
  else
    let c := drawCount d
    let lane := Config.freeNat c.1 % 16
    let d := modDch ch (fun c => { c with failed := some lane }) c.2
    let d := dramLog ch 2 0 31 e d
    noteCause causeEcc { d with pwr := { d.pwr with dramFail := some (ch, lane) } }

/-! ## Self-refresh (R399, R400) -/

/-- Entry of a channel: owed refreshes repaid, every bank precharged; a busy channel abandons the entry. -/
def selfRefEnter (ch : Nat) (d : Device) : Device :=
  if !dramUsable d ch then d
  else if dramBusy d ch then modDch ch (fun c => { c with rows := [], selfRef := 2 }) d
  else modDch ch (fun c => { c with rows := [], owed := 0, selfRef := 1, extended := c.hot }) d

/-- Exit of a channel. -/
def selfRefExit (ch : Nat) (d : Device) : Device := modDch ch (fun c => { c with selfRef := 0 }) d

/-- A request reaches a channel in self-refresh: it exits to serve it, and retries later (R400). -/
def selfRefWake (ch : Nat) (d : Device) : Device :=
  if (dchAt d ch).selfRef = 1 then modDch ch (fun c => { c with selfRef := 2 }) d else d

/-- DRAM_INIT_DONE (R386, R387, R477): the channel is trained and filled with zero, or failed with its lane; a
configuration that R381 does not list fails the channel. -/
def initDone (ch conf : Nat) (badLane : Option Nat) (e : Env) (d : Device) : Device :=
  let c := dchAt d ch
  if ch ≥ 2 || !d.pwr.sramClear || c.ready || c.failed.isSome then d
  else
    match (if conf > 4 then some (badLane.getD 0) else badLane) with
    | some lane =>
      let d := modDch ch (fun c => { c with failed := some lane, det := if conf > 4 then c.det else conf }) d
      let d := dramLog ch 3 0 31 e d
      { d with pwr := { d.pwr with dramFail := d.pwr.dramFail.or (some (ch, lane)) } }
    | none => modDch ch (fun c => { c with ready := true, det := conf }) d

/-! ## Commands of the environment -/

/-- ECC_WRITEBACK: write-back of a corrected SRAM word (R356). -/
def execEccWriteback (place : UpsetAt) (s : State) : Host.Outcome State Fault Refusal :=
  act (fun _ d => writeBack place d) s

/-- The write-back of a corrected DRAM word, in an idle moment, reaches its bank (R395, R390). -/
def dramWriteBack (ch w : Nat) (d : Device) : Device :=
  if !(dchAt d ch).wb.contains w || !dramUsable d ch || dramBusy d ch then d
  else dramTouch ch (8 * w / 64 * 64) 1 (modDch ch (fun c => { c with wb := c.wb.filter (· ≠ w) }) d)

/-- DRAM_ECC_WRITEBACK: write-back of a corrected DRAM word (R395). -/
def execDramEccWriteback (ch w : Nat) (s : State) : Host.Outcome State Fault Refusal :=
  act (fun _ d => dramWriteBack ch w d) s

def execRefreshDue (ch : Nat) (s : State) : Host.Outcome State Fault Refusal := act (fun e d => refreshDue ch e d) s

def execDramTempRead (ch : Nat) (hot : Bool) (s : State) : Host.Outcome State Fault Refusal :=
  act (fun _ d => tempRead ch hot d) s

/-- ZQ_SHORT_CAL: every 128 ms, in an idle moment (R394). -/
def execZqShortCal (ch : Nat) (s : State) : Host.Outcome State Fault Refusal :=
  act (fun _ d => when (dramIdle d ch) (modDch ch (fun c => { c with zq := c.zq + 1 })) d) s

/-- BANK_IDLE_PRECHARGE: a bank's idle timer reached IDLE_NS (R390). -/
def execBankIdlePrecharge (ch bank : Nat) (s : State) : Host.Outcome State Fault Refusal :=
  act (fun _ d => modDch ch (fun c => { c with rows := mset none c.rows bank none }) d) s

def execAlertParity (ch : Nat) (s : State) : Host.Outcome State Fault Refusal := act (fun e d => alertParity ch e d) s

def execAlertNHigh (ch : Nat) (s : State) : Host.Outcome State Fault Refusal := act (fun _ d => alertHigh ch d) s

def execAlertStuck (ch : Nat) (s : State) : Host.Outcome State Fault Refusal := act (fun e d => alertStuck ch e d) s

/-- SELF_REFRESH_RETRY: no request for 10 µs in the quiet state (R400). -/
def execSelfRefreshRetry (ch : Nat) (s : State) : Host.Outcome State Fault Refusal :=
  act (fun _ d => when (d.pwr.quiet && (dchAt d ch).selfRef = 2) (selfRefEnter ch) d) s

def execDramInitDone (ch cfg : Nat) (badLane : Option Nat) (s : State) : Host.Outcome State Fault Refusal :=
  act (fun e d => initDone ch cfg badLane e d) s

end Sys2Proof.Machine
end

