-- ==== Sys2Proof/Machine/Psc.lean ====
section
/-! DEFINITION. The power stage (chapter 06, R179 to R204): limits in force, the interpolator, the modulator, the
states of a power channel, overcurrent, load diagnostics and the rail controllers. -/
namespace Sys2Proof.Machine

/-! ## The limits in force (R218) -/

/-- The blank limits of a part with no valid record. -/
def blankLimits : LimitRec :=
  { vmax := List.replicate 16 200, imax := List.replicate 16 200, rail := List.replicate 4 240 }

/-- The record in force: the valid record with the highest COUNT. -/
def limitsNow (d : Device) : LimitRec :=
  (d.jrn.slots.filter (·.valid)).foldl (fun a r => if r.count > a.count then r else a) blankLimits

/-- V_MAX in V, I_MAX in A, L_g in V. -/
def vMax (d : Device) (n : Nat) : F36 := f36Rat (nth (200 : Nat) (limitsNow d).vmax n : Nat) 10
def iMax (d : Device) (n : Nat) : F36 := f36Rat (nth (200 : Nat) (limitsNow d).imax n : Nat) 100
def railLimit (d : Device) (g : Nat) : F36 := f36Rat (nth (240 : Nat) (limitsNow d).rail g : Nat) 10

/-! ## Channels, groups and their chains (R179, R180) -/

/-- A direct path names power channel `n` as its sink. -/
def pathNames (d : Device) (n : Nat) : Bool := d.inp.dp.any (fun p => p.2.app.sink = 0x2000 + n)

/-- A direct path feeds power channel `n` in the frame that begins at this tick (R146): an enabled one, or one that fades out. -/
def pathFed (d : Device) (n : Nat) : Bool :=
  d.pwr.spoke && d.inp.dp.any (fun p =>
    (p.2.app.en && p.2.app.sink = 0x2000 + n) || (!p.2.app.en && p.2.live.en && p.2.live.sink = 0x2000 + n))

/-- A configured power channel (R179). -/
def pchConfigured (d : Device) (n : Nat) : Bool :=
  d.pwr.spoke && decide (n < 16) && (nth 0xFFFF (cfg d).pchOut n ≠ 0xFFFF || pathNames d n)

/-- The configured power channels, in increasing index. -/
def pchsConfigured (d : Device) : List Nat := (List.range 16).filter (pchConfigured d)

def railGroup (d : Device) (n : Nat) : Nat := nth (n / 4) (cfg d).railGrp n

/-- The configured channels of a rail group. -/
def groupChans (d : Device) (g : Nat) : List Nat :=
  (List.range 16).filter (fun n => pchConfigured d n && railGroup d n = g)

/-- The power channels that a decimation chain serves (R180). -/
def chainServes (d : Device) (c : Nat) : List Nat :=
  if c < 16 then [c].filter (pchConfigured d)
  else if c < 32 then [c - 16].filter (pchConfigured d)
  else if c < 36 then groupChans d (c - 32)
  else []

/-- A reserved chain (R180). -/
def chainReserved (d : Device) (c : Nat) : Bool := !(chainServes d c).isEmpty

/-- A channel is outside OFF, SAFE and LATCHED. -/
def pchActive (d : Device) (n : Nat) : Bool :=
  let st := (pchAt d n).st
  !(st = .off || st = .safe || st = .latched)

/-- A command that would stop, load or reset the chain is refused with PCH_BUSY (R180, R209). -/
def chainBusy (d : Device) (c : Nat) : Bool := (chainServes d c).any (pchActive d)

/-- Parameters of a channel for the frame `j` ticks back. -/
def pcfg (p : Pch) (j : Nat) : PchCfg := nth {} p.cfgs j

/-- Latest rail voltage of a group: V_s × RAIL_SCALE (R201, R210). (log 54: DEDUCED, unsafe.) -/
def railVolts (d : Device) (g : Nat) : F36 := ((railAt d g).v.getLast?).getD 0

/-! ## The interpolator (R184) -/

/-- R = 768 kHz / fs. -/
def interpR (d : Device) : Nat := 768000 / fsHz d

/-- The taps of phase `j` in increasing m; the factor sin(π t) / π common to them cancels, and phase 0 is the unit
tap at t = 0. (log 54: DEDUCED, unsafe.) -/
def interpPhase (r j : Nat) : List F36 :=
  if j = 0 then [0, 0, 0, fOne, 0, 0, 0] else
  let a := (List.range 6).map (fun (q : Nat) =>
    let t : Int := (q * r + j : Nat) - (3 * r : Nat)
    let w := fxKaiser 49 1 t (3 * r)
    let v := if t > 0 then Int.fdiv (w * (r : Int)) t else -(Int.fdiv (w * (r : Int)) (-t))
    if q % 2 = 1 then v else -v)
  let s := a.foldl (· + ·) 0
  let hn := a.map (fun v => Int.fdiv (v * (pow2 fxBits : Nat)) s)
  let k := hn.map (fun x => fxRound x 26)
  let e : Int := pow2 26 - k.foldl (· + ·) 0
  let b := largestTap (hn.map (fun x => (fxDy x).m))
  k.zipIdx.map (fun p => ofDy ⟨if p.2 = b then p.1 + e else p.1, -26⟩)

/-- All phases. -/
def interpTable (r : Nat) : List (List F36) := (List.range r).map (interpPhase r)

/-- The taps in order of m, as the PSC_INTERP query reads them. -/
def interpTaps (r : Nat) : List F36 :=
  let t := interpTable r
  (List.range (6 * r + 1)).map (fun m => nth 0 (nth [] t (m % r)) (m / r))

/-- x_p for carrier period `p`, from the six samples before the frame and the frame itself. -/
def interpAt (r : Nat) (tbl : List (List F36)) (s : List F36) (p : Nat) : F36 :=
  (nth [] tbl (p % r)).zipIdx.foldl (fun a q => fadd a (fmul q.1 (nth 0 s (6 + p / r - q.2)))) 0

/-! ## The modulator (R183, R186, R187) -/

/-- L_p: length of carrier period `p` of a tick of `c` cycles. -/
def carrierLen (c p : Nat) : Nat := (p + 1) * c / 128 - p * c / 128

/-- What one carrier period gives: leg high times, shaper states, whether the depth was limited. -/
structure PwmOut where
  w : Nat × Nat
  e1 : F36
  e2 : F36
  clip : Bool
deriving DecidableEq, Repr

/-- One carrier period of PLAY. -/
def pwmPeriod (vout mmax vmax vff : F36) (len : Nat) (e1 e2 x : F36) : PwmOut :=
  let m := fdiv (fmul x vout) vff
  let lim := fmin mmax (fdiv vmax vff)
  let clip := flt lim (fabs m)
  let m := if clip then (if (toDy m).m < 0 then fneg lim else lim) else m
  let t := fmul m (fint len)
  let u := fadd (fsub t (fmul (fint 2) e1)) e2
  let k := dyRound (toDy u)
  let top := dyFloor (toDy (fmul mmax (fint len)))
  let dd := if k > top then top else if k < -top then -top else k
  let e := fsub (fint dd) u
  let e := if dd ≠ k then fmin (fmax e (fneg fOne)) fOne else e
  let wa := Int.fdiv ((len : Int) + dd + 1) 2
  { w := (wa.toNat, (wa - dd).toNat), e1 := e, e2 := e1, clip := clip }

/-- Width of both legs at duty 0.25 × (1 − cos(π a / b)) (R191). -/
def cmWidth (a b len : Nat) : Nat :=
  (fxRound (Int.fdiv ((fxOne - fxCosPi a b) * (len : Int)) 4) 0).toNat

/-! ## The gain a(i) (R184, R192, R208) -/

def pscGain (n : Nat) (r : PscRamp) (i : Nat) : F36 :=
  match r with
  | .unity => fOne
  | .fadeIn => wIn n i
  | .fadeOut => wOut n i
  | .linear q m => rampGain n m q 0 fOne i
  | .zero => 0

def pscRampNext : PscRamp → PscRamp
  | .unity => .unity
  | .fadeIn => .unity
  | .fadeOut => .zero
  | .linear q m => if q + 1 < m then .linear (q + 1) m else .unity
  | .zero => .zero

/-- A detector holds the mute of channel `n` (R208). -/
def muteHeld (d : Device) (n : Nat) : Bool :=
  d.psc.dec.any (fun p =>
    (p.2.hi.asserted && p.2.hi.act = 1 && p.2.hi.mask.getLsbD n)
    || (p.2.lo.asserted && p.2.lo.act = 1 && p.2.lo.mask.getLsbD n))

/-- The mute's factor of a(i): w_out as it begins, w_in as it ends. -/
def muteGain (n : Nat) (was want : Bool) (i : Nat) : F36 :=
  if want then (if was then 0 else wOut n i) else if was then wIn n i else fOne

/-- a(i) over a frame. -/
def pscGains (n : Nat) (r : PscRamp) (was want : Bool) : List F36 :=
  (List.range n).map (fun i => if was = want && !want then pscGain n r i else fmul (pscGain n r i) (muteGain n was want i))

/-- A frame multiplied by a(i). -/
def pscSignal (n : Nat) (r : PscRamp) (was want : Bool) (x : List F36) : List F36 :=
  (pscGains n r was want).zipIdx.map (fun p => fmul (nth 0 x p.2) p.1)

/-! ## States (R190 to R194) -/

def pchNum : PchSt → Nat
  | .off => 0 | .diag => 1 | .cmUp => 2 | .play => 3 | .cmDown => 4 | .ocWait => 5 | .latched => 6 | .safe => 7

/-- A state change raises PCH_STATE (R194, R297). (log 113: DEDUCED, unsafe.) -/
def pchMove (n : Nat) (st : PchSt) (cause : Nat) (e : Env) (d : Device) : Device :=
  let p := pchAt d n
  if p.st = st then d
  else
    let d := raise 0x1002 (0x50 + n) (leBytes 1 (pchNum p.st) ++ leBytes 1 (pchNum st) ++ leBytes 1 cause) e d
    modPch n (fun p => { p with st := st, cause := if st = .safe || st = .latched then cause else p.cause }) d

/-- The start or stop that waits completes (R194). -/
def pchFinish (n status : Nat) (e : Env) (d : Device) : Device :=
  match (pchAt d n).waitCmd with
  | none => d
  | some u => finishUid u status [] e (modPch n (fun p => { p with waitCmd := none }) d)

/-- All four gates low at once. -/
def gatesOff (n : Nat) (d : Device) : Device :=
  modPch n (fun p => { p with gatesLow := true, emit := .none, widths := [], hist := [0, 0, 0, 0, 0, 0], ramp := .unity, e1 := 0,
                              e2 := 0 }) d

/-- The diagnosis that holds channel `n` (R195: at most one). -/
def diagOf (d : Device) (n : Nat) : Option Diag := d.psc.diags.find? (fun g => g.mask.getLsbD n)

/-- Change a diagnosis, known by its command. -/
def modDiag (uid : BitVec 32) (f : Diag → Diag) (d : Device) : Device :=
  { d with psc := { d.psc with diags := d.psc.diags.map (fun g => if g.ridx = uid then f g else g) } }

/-- A channel leaves a diagnosis before its end, with result `r`: RAIL_FAIL where a safety cause other than a stuck sense chain
ends it, NO_SENSE where a stuck chain or a function reset does. (log 121: DESIGN CHOICE, unsafe.) -/
def diagDrop (n r : Nat) (d : Device) : Device :=
  match diagOf d n with
  | none => d
  | some g => when (mget none g.res n).isNone (modDiag g.ridx (fun g => { g with res := mset none g.res n (some r) })) d

/-- The function reset of a channel returns (R194, R280). -/
def pchReturn (n : Nat) (e : Env) (d : Device) : Device :=
  let u := (pchAt d n).resetUid
  let d := modPch n (fun p => { p with resetting := none, resetUid := none }) d
  match u with | some u => finishUid u 0 [] e d | none => d

/-- Entry to SAFE (R192, R193, R197). -/
def toSafe (cause : Nat) (e : Env) (n : Nat) (d : Device) : Device :=
  if (pchAt d n).st = .safe then d
  else
    let d := gatesOff n d
    let d := diagDrop n (if cause = 4 then 6 else 5) d
    let d := pchReturn n e (pchFinish n 2 e d)
    let d := modPch n (fun p => { p with diagOk := false, sched := [], trip := none, q := 0 }) d
    raise 0x4001 (0x50 + n) (leBytes 1 cause) e (pchMove n .safe cause e d)

/-- Common-mode ramp length in carrier periods. -/
def cmPeriods (p : Pch) : Nat := (pcfg p 3).cmRamp * 128

/-- What a scheduled start or stop makes of a state. -/
def pchSched (st : PchSt) (start : Bool) : PchSt :=
  match st, start with
  | .off, true => .cmUp
  | .cmDown, true => .cmUp
  | .cmUp, false => .cmDown
  | .play, false => .cmDown
  | st, _ => st

/-- The state as it will stand once the starts and stops applied so far have taken effect. -/
def pchDue (p : Pch) : PchSt := p.sched.foldl (fun a s => pchSched a s.2) p.st

/-- A start or a stop applied at its AF waits for its output frame; it overtakes the one that waits (R194). -/
def pchSchedule (n : Nat) (start : Bool) (uid : BitVec 32) (e : Env) (d : Device) : Device :=
  let d := pchFinish n 2 e d
  modPch n (fun p => { p with sched := p.sched ++ [(e.fn, start)], waitCmd := some uid, waitStart := start }) d

/-- A commit of the limits runs (R221). -/
def limitBusy (d : Device) : Bool := !d.jrn.committing.isEmpty

/-- PCH_START at its AF (R192, R194, R221). During a function reset it completes and changes nothing, since the reset leaves the
channel OFF without DIAG_OK (R284). (log 122: DEDUCED, unsafe.) -/
def pchStart (n : Nat) (uid : BitVec 32) (e : Env) (d : Device) : Device :=
  let p := pchAt d n
  if limitBusy d then finishUid uid 0x11A [] e d
  else if p.resetting.isSome then finishUid uid 0 [] e d
  else match pchDue p with
    | .off => if p.diagOk then pchSchedule n true uid e d else finishUid uid 0x119 [] e d
    | .cmDown => pchSchedule n true uid e d
    | .cmUp => finishUid uid 0 [] e d
    | .play => finishUid uid 0 [] e d
    | _ => finishUid uid 0x118 [] e d

/-- PCH_STOP at its AF (R192, R194). During a function reset it completes when the channel is OFF (R284); in DIAG, LATCHED and
SAFE it is refused with PCH_BUSY. (log 122: DEDUCED, unsafe.) -/
def pchStop (n : Nat) (uid : BitVec 32) (e : Env) (d : Device) : Device :=
  let p := pchAt d n
  if p.resetting.isSome then modPch n (fun p => { p with waitCmd := some uid, waitStart := false }) (pchFinish n 2 e d)
  else match pchDue p with
    | .off => finishUid uid 0 [] e d
    | .ocWait =>
      let d := pchFinish n 2 e (pchMove n .off 0 e d)
      finishUid uid 0 [] e (modPch n (fun p => { p with ocIgnored := false, waited := 0 }) d)
    | .cmUp => pchSchedule n false uid e d
    | .play => pchSchedule n false uid e d
    | .cmDown => modPch n (fun p => { p with waitCmd := some uid, waitStart := false }) (pchFinish n 2 e d)
    | _ => finishUid uid 0x118 [] e d

/-- The cause that put a channel in SAFE is still present (R192, R193, R204). A rail below half of RAIL_MIN is judged by V_s alone,
though no channel of the group may be driven and its reference is low. (log 123: DEDUCED, unsafe.) -/
def safeCause (d : Device) (n : Nat) : Bool :=
  let g := railGroup d n
  let r := railAt d g
  let min := r.min.getD (fmin (fint 24) (r.max.getD (railLimit d g)))
  match (pchAt d n).cause with
  | 1 => !r.v.isEmpty && r.v.all (fun v => flt v (fmul fHalf min))
  | 2 => r.v.any (fun v => flt (fmul (f36Rat 105 100) (railLimit d g)) v)
  | 3 => d.psc.dec.any (fun p =>
      (p.2.hi.asserted && p.2.hi.act = 2 && p.2.hi.mask.getLsbD n)
      || (p.2.lo.asserted && p.2.lo.act = 2 && p.2.lo.mask.getLsbD n))
  | 4 => d.psc.dec.any (fun p => p.2.stuck && (chainServes d p.1).contains n)
  | 5 => decide (d.pwr.temp ≥ 120 * 16)
  | _ => false

/-- PCH_CLEAR at its AF (R192, R197, R204): in OFF and during a function reset it completes; in the states that R192 does not
list it is refused with PCH_BUSY. (log 122: DEDUCED, unsafe.) (log 125: DEDUCED, unsafe.) -/
def pchClear (n : Nat) (uid : BitVec 32) (e : Env) (d : Device) : Device :=
  let p := pchAt d n
  if p.resetting.isSome then finishUid uid 0 [] e d
  else match p.st with
  | .off => finishUid uid 0 [] e (modPch n (fun p => { p with diagOk := false }) d)
  | .latched =>
    let d := modPch n (fun p => { p with diagOk := false, ocIgnored := false }) d
    finishUid uid 0 [] e (pchMove n .off 0 e d)
  | .safe =>
    if safeCause d n then finishUid uid 0x118 [] e d
    else finishUid uid 0 [] e (pchMove n .off 0 e (modPch n (fun p => { p with diagOk := false }) d))
  | _ => finishUid uid 0x118 [] e d

/-- Function reset of a power channel at its AF (R194, R214). -/
def pchReset (n : Nat) (uid : BitVec 32) (e : Env) (d : Device) : Device :=
  let st := (pchAt d n).st
  let d := pchFinish n 2 e d
  let d := modPch n (fun p => { p with diagOk := false, rc := 0, cx := fOne, excSt := {}, ePk := 0, sched := [] }) d
  if st = .cmUp || st = .play then modPch n (fun p => { p with resetting := some 0, resetUid := some uid }) d
  else if st = .cmDown then modPch n (fun p => { p with resetting := some 1, resetUid := some uid }) d
  else
    let d := diagDrop n 6 (gatesOff n d)
    let d := modPch n (fun p => { p with ocIgnored := false, waited := 0, q := 0 }) d
    finishUid uid 0 [] e (pchMove n .off 9 e d)

/-! ## Trips (R198 to R200) -/

/-- A trip found since the last tick is handled (R192, R200). A channel whose RC is above 4 after the increment is LATCHED as at
4. (log 122: DEDUCED, unsafe.) -/
def tripTick (n : Nat) (e : Env) (d : Device) : Device :=
  let p := pchAt d n
  match p.trip with
  | none => d
  | some kind =>
    let d := modPch n (fun p => { p with trip := none }) d
    let cause := 6 + kind
    if p.resetting.isSome then d
    else if p.st = .cmDown then
      let d := modPch n (fun p => { p with q := 0, sched := [], ocIgnored := false }) d
      let ok := if p.waitStart then 2 else 0
      pchFinish n ok e (pchMove n .off cause e d)
    else if p.st = .cmUp || p.st = .play then
      let rc := p.rc + 1
      let d := modPch n (fun p => { p with rc := rc, q := 0, waited := 0, sched := [] }) d
      let d := raise 0x4002 (0x50 + n) (leBytes 1 rc ++ leBytes 1 kind) e d
      let d := pchFinish n 2 e d
      if rc ≤ 3 then pchMove n .ocWait cause e d
      else raise 0x4003 (0x50 + n) [] e (pchMove n .latched cause e d)
    else d

/-! ## Diagnostics (R195, R196) -/

def diagChans (g : Diag) : List Nat := (List.range 16).filter (fun n => g.mask.getLsbD n)

/-- The groups that a mask names. -/
def maskGroups (d : Device) (m : BitVec 16) : List Nat :=
  ((List.range 16).filter (fun n => m.getLsbD n)).map (railGroup d) |>.eraseDups

/-- PCH_DIAG is refused with PCH_BUSY (R194, R195). -/
def diagBusy (d : Device) (m : BitVec 16) : Bool :=
  (List.range 16).any (fun n => m.getLsbD n && ((pchAt d n).st ≠ .off || !(pchAt d n).sched.isEmpty))
    || (maskGroups d m).any (fun g => (groupChans d g).any (fun n => pchActive d n || !(pchAt d n).sched.isEmpty))

/-- PCH_DIAG at its AF: the sequence starts with phase RAIL. -/
def diagStart (g : Diag) (e : Env) (d : Device) : Device :=
  if limitBusy d then finishUid g.ridx 0x11A [] e d
  else if diagBusy d g.mask then finishUid g.ridx 0x118 [] e d
  else
    let d := { d with psc := { d.psc with diags := d.psc.diags ++ [g] } }
    let d := forAll (diagChans g) (fun n d => pchMove n .diag 0 e d) d
    forAll (maskGroups d g.mask) (fun j d => modRail j (fun r => { r with test := some (nth 0 g.rails j), okFrames := 0 }) d) d

/-- Frames of a phase: RISE and FALL last the longest CM_RAMP of the mask. -/
def diagLen (d : Device) (g : Diag) : Nat :=
  match g.phase with
  | 0 => 60
  | 1 => 12
  | 2 => 12
  | 4 => 72
  | _ => (diagChans g).foldl (fun a n => max a (pcfg (pchAt d n) 0).cmRamp) 0

/-- The phase is at its end: RAIL also when every group has settled (R196). -/
def diagOver (d : Device) (g : Diag) : Bool :=
  decide (g.frames ≥ diagLen d g)
  || (g.phase = 0 && (maskGroups d g.mask).all (fun j => decide ((railAt d j).okFrames ≥ 6)))

/-- The load impedance |Z| of the held frames. -/
def diagZof (g : Diag) (n : Nat) : F36 := fsqrt (fdiv (mget 0 g.sumV n) (mget 0 g.sumI n))

/-- The result that the phase's check gives a channel that has passed so far; `free` is drawn where the check does not
say which of two results it is (RISE). (log 18: DESIGN CHOICE, safe.) -/
def diagCheck (d : Device) (g : Diag) (n : Nat) : Option Nat :=
  let hit := g.ocHit.contains n
  let stuck := d.psc.dec.any (fun p => p.2.stuck && (chainServes d p.1).contains n)
  if stuck then some 6 else
  match g.phase with
  | 0 => if (railAt d (railGroup d n)).okFrames ≥ 6 then none else some 5
  | 1 => if hit || g.vHit.contains n then some 1 else none
  | 2 => if hit || g.vHit.contains n then some 2 else none
  | 3 => if hit then some (1 + Config.freeNat (d.free + n) % 2) else none
  | 4 =>
    if fzero (mget 0 g.sumI n) then some 3
    else if flt g.open_ (diagZof g n) then some 3
    else if flt (diagZof g n) g.short || hit then some 4
    else none
  | _ => none

/-- End of the sequence: results, DIAG_OK, DIAG_DONE, completion (R196, R197). -/
def diagFinish (g : Diag) (e : Env) (d : Device) : Device :=
  let d := forAll (diagChans g) (fun n d =>
    let r := (mget none g.res n).getD 0
    let d := gatesOff n (modPch n (fun p => { p with diagRes := r, diagOk := r = 0 && p.st = .diag, q := 0 }) d)
    if (pchAt d n).st = .diag then pchMove n .off 0 e d else d) d
  let d := forAll (maskGroups d g.mask) (fun j d => modRail j (fun r => { r with test := none }) d) d
  let d := { d with psc := { d.psc with diags := d.psc.diags.filter (fun x => x.ridx ≠ g.ridx) } }
  let d := raise 0x1003 (0x50 + (diagChans g).headD 0) (leBytes 2 g.mask.toNat) e d
  let word : Nat → Nat := fun j => leNat ((List.range 4).map (fun i =>
    BitVec.ofNat 8 (if g.mask.getLsbD (4 * j + i) then (mget none g.res (4 * j + i)).getD 0 else 0)))
  finishUid g.ridx 0 [word 0, word 1, word 2, word 3] e d

/-- The tone's sample at `j` samples of the TONE phase, in volts: sine of DIAG_VTEST peak at DIAG_FREQ. -/
def diagTone (fs : Nat) (g : Diag) (j : Nat) : F36 :=
  let f := toDy g.freq
  let cyc : Int := Int.fdiv (dyAt ⟨f.m * (j : Int), f.e⟩ (-40)) (fs : Int)
  let frac := (cyc % (pow2 40 : Nat)).toNat
  fmul g.vtest (fxF36 (fxSin (fxMul fxPi (fxRat (2 * frac : Nat) (pow2 40)) - (if frac * 2 ≥ pow2 40 then 2 * fxPi else 0))))

/-- a(i) in the TONE phase: six frames up, sixty held, six down. -/
def diagGain (n frame i : Nat) : F36 :=
  if frame < 6 then rampGain n 6 frame 0 fOne i
  else if frame < 66 then fOne
  else rampGain n 6 (frame - 66) fOne 0 i

/-! ## Emission (R183 to R191) -/

/-- What a PLAY frame of channel `n` is emitted with. -/
def playPar (d : Device) (n : Nat) : PlayPar :=
  let c := pcfg (pchAt d n) 3
  { vout := c.voutFs, mMax := c.mMax, vMax := vMax d n }

/-- The widths of a PLAY frame: `all` are the six samples before it and its own, `rail` the latest rail sample of the group in
each sample interval (R184, R186, R187). Widths, shaper states, and whether a period was limited. -/
def playWidths (d : Device) (q : PlayPar) (all rail : List F36) (e1 e2 : F36) : List (Nat × Nat) × F36 × F36 × Bool :=
  let r := interpR d
  let tbl := interpTable r
  foldN 128 (fun (a : List (Nat × Nat) × F36 × F36 × Bool) (j : Nat) =>
    let vff := fmax (nth 0 rail (j / r)) fOne
    let o := pwmPeriod q.vout q.mMax q.vMax vff (carrierLen d.psc.cycOut j) a.2.1 a.2.2.1 (interpAt r tbl all j)
    (a.1 ++ [o.w], o.e1, o.e2, a.2.2.2 || o.clip)) ([], e1, e2, false)

/-- A framed signal enters the emission of the frame that begins. -/
def playStart (par : PlayPar) (s : List F36) (p : Pch) : Pch :=
  let all := p.hist ++ s
  { p with emit := .play par all, hist := all.drop (all.length - 6), gatesLow := false }

/-- A frame in which both legs take one width per period. -/
def equalFrame (d : Device) (p : Pch) (w : Nat → Nat → Nat) : Pch :=
  { p with widths := (List.range 128).map (fun j => let x := w j (carrierLen d.psc.cyc j); (x, x)),
           emit := .none, hist := [0, 0, 0, 0, 0, 0], gatesLow := false }

/-- Excursion of an output frame (R214): EXC run on a(i) x(i) VOUT_FS. -/
def excFrame (p : Pch) (s : List F36) : Pch :=
  let c := pcfg p 3
  let y := biqFrame c.exc p.excSt (s.map (fun v => fmul v c.voutFs))
  { p with excSt := y.2, ePk := y.1.foldl (fun a v => fmax a (fabs v)) 0 }

/-- What a channel's frame holds before step 1 of R184: the launched frame that waited (R185). -/
def pchInput (d : Device) (n : Nat) : List F36 :=
  if (pchAt d n).next.isEmpty then silence (nSmp d) else (pchAt d n).next

/-- PWM_CLIP of a frame (R186). -/
def pwmClip (n : Nat) (clip : Bool) (e : Env) (d : Device) : Device :=
  when clip (fun d => raiseLim n 0x2008 (0x50 + n) [] e (modPch n (fun p => { p with pwmClip := inc32 p.pwmClip }) d)) d

/-- The latest rail sample in each sample interval of the frame that ended: a sample is there once its interval is over
(R186, R201). (log 54: DEDUCED, unsafe.) -/
def railLatest (d : Device) (g : Nat) : List F36 := (railAt d g).last :: (railAt d g).v

/-- The frame that ended is complete: the widths of a PLAY frame follow from its rail samples (R186); a channel fed by a path
emitted what the path sent (R146), whose excursion is taken now. -/
def emitEnd (n : Nat) (e : Env) (d : Device) : Device :=
  let p := pchAt d n
  let rail := railLatest d (railGroup d n)
  let close := fun (par : PlayPar) (all : List F36) (p : Pch) (d : Device) =>
    let w := playWidths d par all rail p.e1 p.e2
    pwmClip n w.2.2.2 e (setPch n { p with emit := .none, widths := w.1, e1 := w.2.1, e2 := w.2.2.1 } d)
  match p.emit with
  | .none => d
  | .play par all => close par all p d
  | .fed drive par gain framed =>
    let x := match pathInto d (0x2000 + n) with | some q => pathSent d q framed | none => framed
    let s := gain.zipIdx.map (fun q => fmul (nth 0 x q.2) q.1)
    let p := { excFrame p s with emit := .none }
    let all := p.hist ++ s
    if drive then close par all { p with hist := all.drop (all.length - 6) } d else setPch n p d

/-- Step 1 of R184 for the frame that begins: the gain a(i) with the detectors' mute, and what drives the legs; the excursion
model runs on every frame, whatever the state (R208, R214). `drive` is set in PLAY. (log 124: DEDUCED, unsafe.) -/
def emitSignal (drive : Bool) (n : Nat) (d : Device) : Device :=
  let p := pchAt d n
  let want := muteHeld d n
  let a := pscGains (nSmp d) (if drive then p.ramp else .unity) p.muted want
  let x := pchInput d n
  let p1 := { p with ramp := if drive then pscRampNext p.ramp else p.ramp, muted := want }
  if pathFed d n then
    setPch n { p1 with emit := .fed drive (playPar d n) a x, gatesLow := !drive && p.gatesLow } d
  else
    let s := a.zipIdx.map (fun q => fmul (nth 0 x q.2) q.1)
    let p1 := excFrame p1 s
    setPch n (if drive then playStart (playPar d n) s p1 else p1) d

/-- Emission of a diagnostic phase (R196): a channel that has failed, also by a trip in this phase, keeps its gates low; at the
phase's end the next one waits for DIAG_PHASE_END. -/
def emitDiag (g : Diag) (n : Nat) (d : Device) : Device :=
  let p := pchAt d n
  if (mget none g.res n).isSome || (between 1 4 g.phase && g.ocHit.contains n) then gatesOff n d
  else if diagOver d g then setPch n { p with emit := .none } d
  else
  let per := (p.cfgs.headD {}).cmRamp * 128
  match g.phase with
  | 1 => setPch n (equalFrame d p (fun _ len => len)) d
  | 2 => setPch n (equalFrame d p (fun _ _ => 0)) d
  | 3 => setPch n (equalFrame d p (fun j len => cmWidth (min per (g.frames * 128 + j + 1)) per len)) d
  | 4 =>
    let ns := nSmp d
    let s := (List.range ns).map (fun i =>
      fmul (fdiv (diagTone (fsHz d) g (g.frames * ns + i)) (pcfg p 3).voutFs) (diagGain ns g.frames i))
    let p := if g.frames = 0 then { p with e1 := 0, e2 := 0, hist := [0, 0, 0, 0, 0, 0] } else p
    setPch n (playStart (playPar d n) s p) d
  | 5 => setPch n (equalFrame d p (fun j len => cmWidth (per - min per (g.frames * 128 + j)) per len)) d
  | _ => gatesOff n d

/-- The frame of a channel in a function reset (R194): w_out, then a fall over three frames. -/
def emitReset (r n : Nat) (d : Device) : Device :=
  let p := pchAt d n
  let per := cmPeriods p
  let q := if p.st = .play then per else p.q
  let d :=
    if r ≥ 4 || (p.gatesLow && r ≠ 0) then gatesOff n d
    else if r = 0 then
      if p.gatesLow then d
      else if p.st = .play then emitSignal true n (setPch n { p with ramp := .fadeOut } d)
      else setPch n (equalFrame d p (fun _ len => cmWidth q per len)) d
    else setPch n (equalFrame d p (fun j len => cmWidth (q * (384 - ((r - 1) * 128 + j))) (per * 384) len)) d
  modPch n (fun p => { p with resetting := some (min 4 (r + 1)) }) d

/-- Emission of a channel from a tick on. (log 113: DEDUCED, unsafe.) -/
def emitPch (n : Nat) (d : Device) : Device :=
  let p := pchAt d n
  let per := cmPeriods p
  match p.resetting with
  | some r => emitReset r n d
  | none =>
    match p.st with
    | .cmUp =>
      let d := emitSignal false n (setPch n (equalFrame d p (fun j len => cmWidth (min per (p.q + j + 1)) per len)) d)
      modPch n (fun p => { p with q := min per (p.q + 128) }) d
    | .play =>
      modPch n (fun p => { p with waited := p.waited + 1 }) (emitSignal true n d)
    | .cmDown =>
      if p.ramp = .fadeOut then modPch n (fun p => { p with ramp := .unity }) (emitSignal true n d)
      else
        let d := emitSignal false n (setPch n (equalFrame d p (fun j len => cmWidth (p.q - min p.q j) per len)) d)
        modPch n (fun p => { p with q := p.q - min p.q 128 }) d
    | .ocWait => emitSignal false n (modPch n (fun p => { p with waited := p.waited + 1 }) d)
    | .diag => match diagOf d n with | some g => emitDiag g n (emitSignal false n d) | none => d
    | _ => emitSignal false n d

/-- One diagnosis: a phase that is over is judged and the next begins (R196). The samples of its last frame have been seen by
then, and the next phase's first frame begins with it. -/
def diagAdvance (g : Diag) (e : Env) (d : Device) : Device :=
  if !diagOver d g then d else
  let pass := (diagChans g).filter (fun n => (mget none g.res n).isNone)
  let draws := g.phase = 3 && !g.ocHit.isEmpty
  let d0 := d
  let d := when draws (fun d => { d with free := d.free + 16 }) d
  let d := when (g.phase = 4) (forAll pass (fun n d => modPch n (fun p => { p with diagZ := diagZof g n }) d)) d
  let res := pass.foldl (fun m n => mset none m n (diagCheck d0 g n)) g.res
  let d := forAll pass (fun n d => when (mget none res n).isSome (gatesOff n) d) d
  let x := { g with res := res, phase := g.phase + 1, frames := 0, ocHit := [], vHit := [] }
  if x.phase > 5 then diagFinish x e d
  else forAll (diagChans x) (emitDiag x) (modDiag g.ridx (fun _ => x) d)

/-- DIAG_PHASE_END (R196): every diagnosis whose phase is over goes on to its next phase. -/
def diagPhaseEnd (e : Env) (d : Device) : Device := forAll d.psc.diags (fun g d => diagAdvance g e d) d

/-- Starts and stops whose output frame is emitted from this tick (R192). (log 113: DEDUCED, unsafe.) -/
def schedTick (n : Nat) (e : Env) (d : Device) : Device :=
  let p := pchAt d n
  let due := p.sched.filter (fun s => !later (s.1 + 3) e.fn)
  let d := modPch n (fun p => { p with sched := p.sched.filter (fun s => later (s.1 + 3) e.fn) }) d
  forAll due (fun s d =>
    let p := pchAt d n
    match p.st, s.2 with
    | .off, true =>
      pchMove n .cmUp 0 e (modPch n (fun p => { p with q := 0, retry := false, ocIgnored := false, ramp := .unity }) d)
    | .cmDown, true =>
      pchMove n .cmUp 0 e (modPch n (fun p => { p with retry := false, ramp := .unity }) d)
    | .cmUp, false => pchMove n .cmDown 0 e (modPch n (fun p => { p with ramp := .unity }) d)
    | .play, false =>
      pchMove n .cmDown 0 e (modPch n (fun p => { p with q := cmPeriods p, ramp := .fadeOut }) d)
    | .off, false => pchFinish n 0 e d
    | _, _ => d) d

/-! ## Rail controllers (R201 to R204) -/

def railMax (d : Device) (g : Nat) : F36 := (railAt d g).max.getD (railLimit d g)
def railMin (d : Device) (g : Nat) : F36 := (railAt d g).min.getD (fmin (fint 24) (railMax d g))

/-- E_g = min(L_g, RAIL_VFS) (R203). -/
def railCeil (d : Device) (g : Nat) : F36 := fmin (railLimit d g) (nth (fint 200) (cfg d).railVfs g)

/-- The largest |a(i) x(i)| of output frame `k` as the PSC will emit it from the next tick; none for a channel that
is not in CM_UP or PLAY during the frame (R202). -/
def comingPk (d : Device) (n : Nat) (k : BitVec 32) : Option F36 :=
  let p := pchAt d n
  if p.resetting.isSome || p.trip.isSome then none else
  let st := (p.sched.filter (fun s => !later s.1 k)).foldl (fun a s => pchSched a s.2) p.st
  match st with
  | .play => some ((pscSignal (nSmp d) p.ramp p.muted (muteHeld d n) (pchInput d n)).foldl (fun a v => fmax a (fabs v)) 0)
  | .cmUp =>
    if p.st = .cmUp && decide (p.q ≥ cmPeriods p) then
      let r := if p.retry then PscRamp.linear 0 (pcfg p 3).retryRamp else .fadeIn
      some ((pscSignal (nSmp d) r p.muted (muteHeld d n) (pchInput d n)).foldl (fun a v => fmax a (fabs v)) 0)
    else some 0
  | _ => none

/-- need(k) of a group. (log 54: DEDUCED, unsafe.) -/
def railNeed (d : Device) (g : Nat) (k : BitVec 32) : F36 :=
  (groupChans d g).foldl (fun a n =>
    match comingPk d n k with
    | none => a
    | some pk =>
      let c := pcfg (pchAt d n) 2
      fmax a (fadd (fdiv (fmul pk c.voutFs) c.mMax) (railAt d g).head)) 0

/-- The group is SAFE: it is configured, and every configured channel of it is SAFE. -/
def groupSafe (d : Device) (g : Nat) : Bool :=
  !(groupChans d g).isEmpty && (groupChans d g).all (fun n => (pchAt d n).st = .safe)

/-- The density numerator of the reference pin (R203): low in the quiet state and while the group is SAFE. -/
def railRho (d : Device) (g : Nat) (t : F36) : Nat :=
  if d.pwr.quiet || groupSafe d g then 0
  else (dyRound (toDy (fmul (fdiv (fmin t (railCeil d g)) (nth (fint 200) (cfg d).railVfs g)) (fint 65535)))).toNat

/-- The law of R202 for output frame `k`. -/
def railTick (k : BitVec 32) (g : Nat) (d : Device) : Device :=
  let r := railAt d g
  let lo := railMin d g
  let hi := railMax d g
  let prev := r.t.getD lo
  let need := railNeed d g k
  let since := r.sinceRise + 1
  let t := fmax need r.needPrev
  let t := if since ≥ r.hold then fmax t (fsub prev r.decay) else fmax t prev
  let t := fmin (fmax t lo) hi
  let t := match r.test with
    | some x => x
    | none => if (groupChans d g).any (pathFed d) then hi else t
  let d := setRail g { r with t := some t, needPrev := need, sinceRise := if flt prev t then 0 else since } d
  modRail g (fun r => { r with rho := railRho d g t }) d

/-- Function reset of a rail controller (R202). -/
def railReset (g : Nat) (d : Device) : Device :=
  let lo := railMin d g
  modRail g (fun r => { r with t := some lo, needPrev := 0, sinceRise := 0, lowFrames := 0, rho := railRho d g lo }) d

/-- RAIL_CAP for every group whose L_g exceeds RAIL_VFS (R203). -/
def railCaps (e : Env) (d : Device) : Device :=
  forAll (List.range 4) (fun g d =>
    when (flt (nth (fint 200) (cfg d).railVfs g) (railLimit d g)) (fun d =>
      raise 0x201F (0x75 + g) (leBytes 1 g ++ [0] ++
        leBytes 2 (dyRound (toDy (fmul (railCeil d g) (fint 10)))).toNat) e d) d) d

/-- The rail is below half RAIL_MIN through a frame while a channel of the group is driven (R204). -/
def railSense (g : Nat) (d : Device) : Device :=
  let r := railAt d g
  let drive := (groupChans d g).any (fun n =>
    let st := (pchAt d n).st
    st = .cmUp || st = .play || st = .cmDown || st = .diag)
  let low := !r.v.isEmpty && r.v.all (fun v => flt v (fmul fHalf (railMin d g)))
  let ok := match r.test with
    | none => false
    | some t => !r.v.isEmpty && r.v.all (fun v => fle (fmul (f36Rat 9 10) t) v && fle v (fmul (f36Rat 11 10) t))
  setRail g { r with lowFrames := if drive && low then r.lowFrames + 1 else 0, okFrames := if ok then r.okFrames + 1 else 0 } d

/-- A rail fault (R204): RAIL_FAULT and SAFE for the whole group. -/
def railFault (g kind : Nat) (e : Env) (d : Device) : Device :=
  let d := raise 0x4004 (0x75 + g) (leBytes 1 g ++ leBytes 1 kind) e d
  let d := forAll (groupChans d g) (toSafe kind e) d
  modRail g (fun r => { r with rho := 0, lowFrames := 0 }) d

/-! ## The tick of the power stage -/

/-- Parameters move one tick back. -/
def pchShift (d : Device) : Device :=
  forAll (List.range 16) (fun n d => modPch n (fun p => { p with cfgs := pcfg p 0 :: p.cfgs.take 3 }) d) d

/-- The power stage at a tick, after the seal: the frame that ended is complete, trips and transitions act, the next frame's
emission begins. -/
def pscTick (e : Env) (d : Device) : Device :=
  if !d.pwr.spoke then d else
  let d := forAll (List.range 16) (fun n d => emitEnd n e d) d
  let d := forAll (List.range 16) (fun n d => schedTick n e (tripTick n e d)) d
  let d := forAll (pchsConfigured d) emitPch d
  { d with psc := { d.psc with cycOut := d.psc.cyc } }

/-- After the launch of output frame `k`: the launched frames wait, the rails follow. -/
def pscLaunch (k : BitVec 32) (d : Device) : Device :=
  if !d.pwr.spoke then d else
  let d := forAll (pchsConfigured d) (fun n d =>
    let o := nth 0xFFFF (cfg d).pchOut n
    modPch n (fun p => { p with next := if o = 0xFFFF then [] else (outAt d o).emit8 }) d) d
  forAll (List.range 4) (railTick k) d

/-! ## Events of the environment -/

/-- A comparator trip of a channel in its diagnostic phase (R196). -/
def diagHit (g : Diag) (n : Nat) (d : Device) : Device :=
  modDiag g.ridx (fun g => { g with ocHit := if g.ocHit.contains n then g.ocHit else n :: g.ocHit }) d

/-- OC_COMPARATOR (R198): a crossing of OC_THR with at least 50 mV of overdrive. A channel that does not pass OC_WAIT after a trip
takes its input again where it goes to OFF. (log 125: DEDUCED, unsafe.) -/
def ocComparator (n : Nat) (e : Env) (d : Device) : Device :=
  let p := pchAt d n
  let idle : Device → Device := fun d =>
    raiseLim n 0x2009 (0x50 + n) [] e (modPch n (fun p => { p with ocIdle := inc32 p.ocIdle }) d)
  match p.st with
  | .diag =>
    match diagOf d n with
    | some g => if p.gatesLow then idle d else diagHit g n d
    | none => d
  | .ocWait => d
  | .cmUp | .play | .cmDown =>
    if p.ocIgnored || p.trip.isSome then d
    else modPch n (fun p => { p with trip := some 0, ocIgnored := true, ocComp := inc32 p.ocComp }) (gatesOff n d)
  | _ => idle d

def execOcComparator (pch : Nat) (s : State) : Host.Outcome State Fault Refusal :=
  act (fun e d => when (pchConfigured d pch) (ocComparator pch e) d) s

/-- I_SENSE_TRIP (R199): a current sample above 1.25 × I_MAX drives the gates low and counts as a comparator trip, in a diagnosis
as a trip of its phase. -/
def iSenseTrip (n : Nat) (d : Device) : Device :=
  let p := pchAt d n
  let above := p.i.any (fun v => flt (fmul (f36Rat 5 4) (iMax d n)) (fabs v))
  let drive := p.st = .cmUp || p.st = .play || p.st = .cmDown
  if above && p.st = .diag && !p.gatesLow then
    match diagOf d n with | some g => diagHit g n (gatesOff n d) | none => d
  else if above && drive && !p.ocIgnored && p.trip.isNone then
    modPch n (fun p => { p with trip := some 1, ocIgnored := true, ocSense := inc32 p.ocSense }) (gatesOff n d)
  else d

def execISenseTrip (pch : Nat) (s : State) : Host.Outcome State Fault Refusal :=
  act (fun _ d => when (pchConfigured d pch) (iSenseTrip pch) d) s

/-- CM_UP_DONE (R192): the channel plays; the shaper and the estimation window start anew (R187, R213), the window with its filters
at zero. (log 126: DEDUCED, unsafe.) -/
def cmUpDone (n : Nat) (e : Env) (d : Device) : Device :=
  let p := pchAt d n
  if p.st = .cmUp && p.resetting.isNone && p.trip.isNone && decide (p.q ≥ cmPeriods p) then
    let d := modPch n (fun p => { p with
      ramp := if p.retry then .linear 0 (pcfg p 3).retryRamp else .fadeIn, e1 := 0, e2 := 0, waited := 0,
      svi := 0, sii := 0, winFrames := 0, lpV := {}, lpI := {} }) d
    let d := pchMove n .play 0 e d
    if p.waitStart then pchFinish n 0 e d else d
  else d

def execCmUpDone (pch : Nat) (s : State) : Host.Outcome State Fault Refusal :=
  act (fun e d => when (pchConfigured d pch) (cmUpDone pch e) d) s

/-- CM_DOWN_DONE (R192): the ramp is complete, the gates go low. -/
def cmDownDone (n : Nat) (e : Env) (d : Device) : Device :=
  let p := pchAt d n
  if p.st = .cmDown && p.resetting.isNone && p.trip.isNone && p.q = 0 && p.ramp ≠ .fadeOut then
    let d := pchMove n .off 0 e (gatesOff n d)
    if p.waitStart then d else pchFinish n 0 e d
  else d

def execCmDownDone (pch : Nat) (s : State) : Host.Outcome State Fault Refusal :=
  act (fun e d => when (pchConfigured d pch) (cmDownDone pch e) d) s

/-- OC_WAIT_EXPIRE (R192, R200): after 300 frames the channel retries. -/
def ocWaitExpire (n : Nat) (e : Env) (d : Device) : Device :=
  let p := pchAt d n
  if p.st = .ocWait && decide (p.waited ≥ 300) then
    pchMove n .cmUp 8 e (modPch n (fun p => { p with q := 0, retry := true, ocIgnored := false, waited := 0 }) d)
  else d

def execOcWaitExpire (pch : Nat) (s : State) : Host.Outcome State Fault Refusal :=
  act (fun e d => when (pchConfigured d pch) (ocWaitExpire pch e) d) s

/-- RC_CLEAR (R200): 600 frames in PLAY without a trip. -/
def execRcClear (pch : Nat) (s : State) : Host.Outcome State Fault Refusal :=
  act (fun _ d =>
    let p := pchAt d pch
    when (pchConfigured d pch && p.st = .play && p.trip.isNone && decide (p.waited ≥ 600))
      (modPch pch (fun p => { p with rc := 0 })) d) s

/-- PCH_RESET_DONE (R194): the fade and the fall are over. -/
def pchResetDone (n : Nat) (e : Env) (d : Device) : Device :=
  match (pchAt d n).resetting with
  | some 4 =>
    let d := modPch n (fun p => { p with q := 0, waited := 0, ocIgnored := false, trip := none }) (gatesOff n d)
    pchFinish n 0 e (pchReturn n e (pchMove n .off 9 e d))
  | _ => d

def execPchResetDone (pch : Nat) (s : State) : Host.Outcome State Fault Refusal :=
  act (fun e d => when (pchConfigured d pch) (pchResetDone pch e) d) s

def execDiagPhaseEnd (s : State) : Host.Outcome State Fault Refusal := act diagPhaseEnd s

/-- RAIL_LOW (R204). -/
def execRailLow (group : Nat) (s : State) : Host.Outcome State Fault Refusal :=
  act (fun e d => when (group < 4 && decide ((railAt d group).lowFrames ≥ 6)) (railFault group 1 e) d) s

/-- A sample of the group's rail exceeds 1.05 × L_g. -/
def railOver (d : Device) (g : Nat) : Bool :=
  !(groupChans d g).isEmpty && (railAt d g).v.any (fun v => flt (fmul (f36Rat 105 100) (railLimit d g)) v)

/-- RAIL_OVER (R204): the reference goes low at once. -/
def execRailOver (group : Nat) (s : State) : Host.Outcome State Fault Refusal :=
  act (fun e d => when (group < 4 && railOver d group) (railFault group 2 e) d) s

end Sys2Proof.Machine
end

