-- ==== Sys2Proof/Machine/Tasks.lean ====
section
/-! DEFINITION. What the built-in tasks compute and the engines beside the cores (R298, R54, R94, R112 to R114, R158):
metadata, ingress, FRONT, BACK, the bay engines, the reduction tree, the convolution engine, bulk-delay reads. A
built-in task's result stands from its completion. -/
namespace Sys2Proof.Machine

/-- The input frame whose tasks run between tick FN and tick FN + 1 (R21): FN − 1. -/
def runFrame (e : Env) : BitVec 32 := e.fn - 1

/-- A copied item whose copy is complete goes to the standby (R237): its messages, each within one Ethernet frame (R224). -/
def sendCopy (key : Nat) (e : Env) (d : Device) : Device :=
  match d.pair.copying.find? (fun c => c.key = key) with
  | none => d
  | some c =>
    let left := if c.last then d.pair.left.filter (· ≠ key) else d.pair.left
    let d := { d with pair := { d.pair with
      copying := d.pair.copying.filter (fun c => c.key ≠ key), left := left
      leftOff := if c.last then (if d.pair.left.head? = some key then 0 else d.pair.leftOff) else d.pair.leftOff + c.len } }
    forAll c.msgs (fun m d => sendDraw 6 m e d) d

/-- The computation of a built-in task (R298) or of a job: the spectra of a load stand in the staging bank at its completion, a
re-run's frames are read at RERUN_DONE. The protection of a power channel is computed at the tick (R212), bridges and telemetry have
no result of their own here. (log 13: DESIGN CHOICE, unsafe.) -/
def computeTask (w : Work) (e : Env) (d : Device) : Device :=
  match w.job, w.record with
  | some (.copy key), _ => sendCopy key e d
  | some _, _ => d
  | none, some (o, p) => pendRecord e o p d
  | none, none =>
    match taskAt d w.task with
    | none => d
    | some t =>
      match t.kind with
      | .front n => chFront w.frame n d
      | .back n => wipeOutLine n (outAt d n).dsp.bulkDepth (chBack w.frame n d)
      | .ing o => wipeObjLine o (objAt d o).bulkDepth (ingestObj w.frame o d)
      | _ => d

/-- Loads of a chain whose last swap's scarf frame has been rendered complete (R166): every output that swapped at AF has its
frame. -/
def loadsRendered (e : Env) (d : Device) : Device :=
  let done := fun (p : Pend) =>
    p.opcode = 0x0202 && p.doneAt = some e.fn && between 1 3 (fld p.d.args 0 1)
      && p.members.all (fun m => m.af + 1 ≠ e.fn || (outAt d m.idx).blk8.isSome)
  forAll (d.cmd.queue.filter done) (fun p d => finishCmd p p.status p.detail none e d) d

/-- A task that reached DONE: its result, then its completion. (log 13: DESIGN CHOICE, unsafe.) -/
def finishTask (core : Nat) (e : Env) (d : Device) : Device :=
  match (cslotAt d core).running with
  | none => d
  | some w => completeTask core e (if w.discard then d else loadsRendered e (computeTask w e d))

/-! ## Metadata records (R48 to R57) -/

/-- A law that the image's OBJECT byte admits; OFF always (R480). (log 52: DEDUCED, unsafe.) -/
def lawAllowed (d : Device) (o : Nat) (l : Law) : Bool := l = .off || bit (objLaws (cfg d) o) (lawNum l - 1)

/-- A record arrives from a source: validated, then handed to the object's metadata task; while nothing renders no
task runs and it is placed at once. (log 51: DEDUCED, safe.) -/
def recordIn (source : MdSrc) (hub : Nat) (r : List Byte) (e : Env) (d : Device) : Device :=
  let o := recObj r
  if o ≥ nObj d then d
  else if (objAt d o).params.mdSrc ≠ source then ignoreRecord o d
  else match recMotion (nObj d) r with
    | none => badRecord hub o d
    | some m =>
      if !lawAllowed d o m.1.law then badRecord hub o d else
      let p : PendRec := { stamp := recStamp r, m := m.1, clamped := m.2, hub := hub, src := source }
      if (homeOf d (mdTask d o)).isSome then deliverRecord o p (sub r 0 32) e d else pendRecord e o p d

/-- RECORD_ARRIVAL (R54, R303). -/
def execRecordArrival (source : MdSrc) (hub : Nat) (record : List Byte) (s : State) :
    Host.Outcome State Fault Refusal :=
  act (fun e d => recordIn source hub record e d) s

/-! ## Bay engines and the reduction tree (R110 to R114) -/

/-- The uncorrectable words that the engine of a bay has met in its frame, and the uncorrectable entries that it has rewritten,
count one each, with the latest's address (R113, R356). `d` is the device before the engine's frame, `d1` after it. -/
def bayUes (d d1 : Device) (b : Nat) : Device :=
  let entries := d.xp.badEntries.filter (fun en => en / 32768 = b)
  let words := d1.xp.met.filter (fun k => k / 524288 = b)
  forAll entries ueEntry (forAll words ueBay d1)

/-- BAY_ENGINE_START (R114): once every object of the bay has been written, its engine renders the frame. -/
def bayStart (b : Nat) (e : Env) (d : Device) : Device :=
  if !d.pwr.rendering || d.xp.started.contains b || !bayReady d b then d
  else
    bayUes d (bayFrame b (runFrame e) e d) b

def execBayEngineStart (bay : Nat) (s : State) : Host.Outcome State Fault Refusal :=
  act (fun e d => when (bay < 16) (bayStart bay e) d) s

/-- An operand `sel` that arrives after tick `k` + 2: its token is discarded (R304). -/
def lateOperand (sel : Nat) (k : BitVec 32) (d : Device) : Device := when (!frameOpen d k) (deliver sel k) d

/-- REDUCTION_DONE (R112): the sum of an output for frame `k` is delivered as XSUM. -/
def reductionDone (n : Nat) (k : BitVec 32) (e : Env) (d : Device) : Device :=
  let all := (List.range 16).all (fun b => d.xp.started.contains b || (bayObjs d b).isEmpty)
  if n ≥ nOut d || !d.pwr.rendering then d
  else if k ≠ runFrame e then lateOperand (selXsum n) k d
  else if !all || (outAt d n).xsum.isSome then d
  else deliver (selXsum n) k (modOut n (fun o => { o with xsum := some (xsumOf d k n) }) d)

def execReductionDone (out : FrameWork) (s : State) : Host.Outcome State Fault Refusal :=
  act (reductionDone out.ix out.frame) s

/-! ## The convolution engine and bulk reads -/

/-- A frame of values that the spec leaves open. -/
def freeFrame (n : Nat) (d : Device) : List F36 × Device :=
  foldN n (fun (a : List F36 × Device) _ => let c := drawCount a.2; (a.1 ++ [Config.freeF36 c.1], c.2)) ([], d)

/-- CVE: the convolution output of output `n` for frame `k`; it is open where another master has written into the output's slot,
whose layout is internal (R160). (log 134: DESIGN CHOICE, safe.) -/
def convolve (k : BitVec 32) (n : Nat) (d : Device) : Device :=
  let d := chConv k n d
  if !(outAt d n).slotLost then d
  else
    let f := freeFrame (nSmp d) d
    modOut n (fun o => { o with convOut := some f.1 }) f.2

/-- CVE_DONE (R158): the convolution output of an output for frame `k` is complete and delivered. -/
def cveDone (n : Nat) (k : BitVec 32) (e : Env) (d : Device) : Device :=
  let o := outAt d n
  if n ≥ nOut d || (outStat (cfg d) n).convMax = 0 then d
  else if k ≠ runFrame e then lateOperand (selCve n) k d
  else if o.convIn.isNone || o.convOut.isSome then d
  else deliver (selCve n) k (convolve k n d)

def execCveDone (out : FrameWork) (s : State) : Host.Outcome State Fault Refusal := act (cveDone out.ix out.frame) s

/-- BULK_READ_DONE (R94): the bulk-delay read of an object for frame `k` has arrived. -/
def bulkReadDone (o : Nat) (k : BitVec 32) (e : Env) (d : Device) : Device :=
  if !d.pwr.rendering || !(cfg d).objBulkEn || o ≥ nObj d then d
  else if k ≠ runFrame e then lateOperand (selBulk o) k d
  else deliver (selBulk o) k d

def execBulkReadDone (obj : FrameWork) (s : State) : Host.Outcome State Fault Refusal :=
  act (bulkReadDone obj.ix obj.frame) s

end Sys2Proof.Machine
end

