-- ==== Sys2Proof/Machine/EthRx.lean ====
section
/-! DEFINITION. Ethernet reception (chapter 14, R277, R278): acceptance and steering of frames, the checks at a frame's
end, statistics, host receive queues, and the stream engine's packets. A frame is the list of its bytes from the
destination address to the end of its payload, without the FCS. -/
namespace Sys2Proof.Machine

/-! ## Ports and statistics (R403, R413, R414) -/

/-- MAX_FRAME of a port (R403, R482). -/
def maxFrame (d : Device) (p : Nat) : Nat :=
  if p = 2 then 9022 else if p = 3 then 1522 else if (portAt d p).maxFrame = 0 then 1522 else (portAt d p).maxFrame

/-- Add to a port's statistics counter; passing 2^31 raises STAT_HALF once (R414). -/
def bumpStat (p i n : Nat) (e : Env) (d : Device) : Device :=
  let q := portAt d p
  let v := add32 (mget 0 q.stat i) n
  let half := decide (v > 2147483648) && !q.half.contains i
  let d := setPort p { q with stat := mset 0 q.stat i v, half := if half then q.half ++ [i] else q.half } d
  when half (raise 0x100F (1 + p) (leBytes 1 i) e) d

/-- Size class of a frame of `len` bytes, FCS included: offset of its counter (R413). -/
def sizeClass (len : Nat) : Nat :=
  if len ≤ 64 then 0 else if len ≤ 127 then 1 else if len ≤ 255 then 2 else if len ≤ 511 then 3
  else if len ≤ 1023 then 4 else if len ≤ 1522 then 5 else 6

/-- Class of a destination address: 0 unicast, 1 multicast, 2 broadcast. -/
def daClass (f : List Byte) : Nat :=
  if (f.take 6).all (· == 0xFF#8) then 2 else if (nth 0 f 0).getLsbD 0 then 1 else 0

/-- A 48-bit address on the wire, first octet first; registers hold the first octet at [7:0] (R522). -/
def macBytes (m : BitVec 48) : List Byte := leBytes 6 m.toNat

/-! ## Frame fields -/

/-- Offset of the EtherType that follows any VLAN tag. -/
def etOff (f : List Byte) : Nat := if bfld f 12 2 = 0x8100 then 16 else 12
def tagged (f : List Byte) : Bool := bfld f 12 2 = 0x8100
def etherType (f : List Byte) : Nat := bfld f (etOff f) 2
/-- Offset of the header after the EtherType. -/
def l3Off (f : List Byte) : Nat := etOff f + 2
/-- VLAN ID and PCP, 0 for an untagged frame (R409). -/
def frameVid (f : List Byte) : Nat := if tagged f then bfld f 14 2 % 4096 else 0
def framePcp (f : List Byte) : Nat := if tagged f then bfld f 14 2 / 8192 else 0
/-- AVTP with sv = 1, and its stream ID. -/
def isAvtp (f : List Byte) : Bool := etherType f = 0x22F0 && (nth 0 f (l3Off f + 1)).getLsbD 7
def avtpId (f : List Byte) : Nat := bfld f (l3Off f + 4) 8

/-! ## Steering (R404, R408, R409) -/

/-- The port accepts the destination address (R404). -/
def daAccept (q : Port) (f : List Byte) : Bool := f.take 6 == macBytes q.mac || daClass f ≠ 0 || q.promisc

/-- A frame matches a receive rule (R409). -/
def ruleMatch (r : RxRule) (f : List Byte) : Bool :=
  r.en
  && (!r.match_.getLsbD 0 || frameVid f = r.vid.toNat)
  && (!r.match_.getLsbD 1 || framePcp f = r.pcp.toNat)
  && (!r.match_.getLsbD 2 || etherType f = r.etype.toNat)
  && (!r.match_.getLsbD 3 || bfld f 0 6 / pow2 (48 - r.daPlen) = beNat (macBytes r.da) / pow2 (48 - r.daPlen))
  && (!r.match_.getLsbD 4 || (isAvtp f && avtpId f = r.sid.toNat))

/-- A frame belongs to an active receive slot on path `p` (R416). -/
def slotMatch (p : Nat) (s : RxSlot) (f : List Byte) : Bool :=
  let o := l3Off f
  bit s.paths p &&
  (if s.format = 2 then
    let ihl := 4 * ((nth 0 f o).toNat % 16)
    etherType f = 0x0800 && nth 0 f (o + 9) = 17 && bfld f (o + 16) 4 = s.streamId.toNat % pow2 32
      && bfld f (o + ihl + 2) 2 = s.streamId.toNat / pow2 32 % 65536
  else s.format ≠ 0 && isAvtp f && avtpId f = s.streamId.toNat)

/-- The destination of an accepted frame (R408). (log 97: DEDUCED, unsafe.) -/
def steer (d : Device) (p : Nat) (f : List Byte) : RxDest :=
  let q := portAt d p
  if p = 2 then .drawbar
  else if etherType f = 0x8808 then .control
  else
    match (if p < 2 then d.inp.rx.find? (fun s => slotMatch p s.2 f) else none) with
    | some s => .stream s.1
    | none =>
      match q.rules.find? (fun r => ruleMatch r.2 f) with
      | some r => if r.2.action = 8 then .drop else .queue r.2.action r.1
      | none => .queue q.defQueue 0xFF

/-- A 16-bit adjustment in 1/16 ns, signed, in units of device time (R432). -/
def adjUnits (a : BitVec 16) : Int := a.toInt * (pow2 36 : Nat)

/-- RX_CLASSIFY: steering and timestamp of a frame whose first 64 bytes have arrived. -/
def rxClassify (p : Nat) (head : List Byte) (cyc : Nat) (d : Device) : Device :=
  let q := portAt d p
  if !q.link then d
  else
    let dest := if daAccept q head then steer d p head else .daDrop
    let t := ((timeAfter d.clk cyc).toNat : Int) + adjUnits q.rxAdj
    let ts : BitVec 32 := BitVec.ofInt 32 (Int.fdiv t (pow2 40 : Nat))
    setPort p { q with rxNow := some (dest, ts, true) } d

/-! ## Host receive queues (R277, R278) -/

/-- Buffers collected for a frame: entry, address, bytes; how many entries were consumed without use; bytes still to
place; the entry after the last one looked at. -/
structure NrxTake where
  bufs : List (BitVec 32 × Nat × Nat) := []
  bad : Nat := 0
  need : Nat
  next : BitVec 32
deriving DecidableEq, Repr

/-- Posted buffers for `need` bytes, in ring order. (log 99: DEDUCED, unsafe.) -/
def nrxTake (e : Env) (d : Device) (r : Nat) : Nat → NrxTake → NrxTake
  | 0, t => t
  | left + 1, t =>
    if t.need = 0 then t
    else
      let ok : Option (Nat × Nat) := match readEntry e d r t.next with
        | none => none
        | some x =>
          let a := fld x 0 8
          let n := fld x 8 4
          if aligned64 a && 64 ≤ n && n ≤ 16384 && n % 64 = 0 then some (a, min n t.need) else none
      nrxTake e d r left (match ok with
        | none => { t with bad := t.bad + 1, next := t.next + 1 }
        | some (a, n) => { t with bufs := t.bufs ++ [(t.next, a, n)], need := t.need - n, next := t.next + 1 })

/-- Write the buffers of a frame and their descriptors (R277); `off` bytes are placed already, `trunc` says that the
frame is cut. -/
def nrxWrite (r : Ring) (f : StagedFrame) (trunc : Bool) : List (BitVec 32 × Nat × Nat) → Nat → Device → Device
  | [], _, d => d
  | (j, a, n) :: rest, off, d =>
    let first := off = 0
    let last := rest.isEmpty
    let flags := ofBits [decide first, last, last && trunc, decide first && f.tsValid]
    let desc := leBytes 2 n ++ leBytes 1 flags ++ leBytes 1 f.rule
      ++ leBytes 2 (if last then off + n else 0) ++ zeros 2
      ++ leBytes 4 (if first then f.ts.toNat else 0) ++ leBytes 4 (if first then f.fn.toNat else 0)
    nrxWrite r f trunc rest (off + n) (post (posAddr r j + 0x10) desc (post a (sub f.bytes off n) d))

/-- Place the oldest staged frame of a queue (R278): whether it left staging. -/
def nrxPlace (p q : Nat) (f : StagedFrame) (e : Env) (d : Device) : Device × Bool :=
  let r := 64 + 8 * p + q
  let ring := ringAt d r
  if !ringLive d r then (d, false)
  else
    let t := nrxTake e d r (covered ring) { need := f.bytes.length, next := ring.didx }
    let used := (t.next - ring.didx).toNat
    let d := countBad r t.bad d
    if t.bufs.isEmpty then (moveRing r used false d, false)
    else
      let trunc := decide (t.need ≠ 0)
      let d := moveRing r used false (nrxWrite ring f trunc t.bufs 0 d)
      let d := when trunc (fun d =>
        raiseLim (8 * p + q) 0x2010 (1 + p) (leBytes 1 q) e (modPort p (fun x => { x with trunc := inc32 x.trunc }) d)) d
      (d, true)

/-- Place what can be placed of a queue's staged frames, in arrival order. -/
def nrxQueue (p q : Nat) (e : Env) : Nat → Device → Device
  | 0, d => d
  | n + 1, d =>
    match (portAt d p).staging.find? (fun f => f.queue = q) with
    | none => d
    | some f =>
      match nrxPlace p q f e d with
      | (d, false) => d
      | (d, true) => nrxQueue p q e n (modPort p (fun x => { x with staging := x.staging.eraseP (fun g => g.queue = q) }) d)

/-- Placement of every queue of a port. -/
def nrxAll (p : Nat) (e : Env) (d : Device) : Device :=
  forAll (List.range 8) (fun q d => nrxQueue p q e (portAt d p).staging.length d) d

/-- After a doorbell fetch: what is still in staging found no buffer and is dropped (R278).
(log 99: DEDUCED, unsafe.) -/
def nrxAfterFetch (e : Env) (d : Device) : Device :=
  forAll (List.range 4) (fun p d =>
    let d := nrxAll p e d
    modPort p (fun x => { x with noBuf := add32 x.noBuf x.staging.length, staging := [] }) d) d

/-- A frame for a host queue enters staging where its 32 KiB have room (R278). (log 99: DEDUCED, unsafe.) -/
def stageFrame (p q rule : Nat) (f : List Byte) (ts : BitVec 32) (valid : Bool) (e : Env) (d : Device) : Device :=
  let x := portAt d p
  let held := (x.staging.map (fun g => g.bytes.length)).sum
  if held + f.length > 32768 then setPort p { x with stageFull := inc32 x.stageFull } d
  else
    let g : StagedFrame := { queue := q, rule := rule, bytes := f, ts := ts, tsValid := valid, fn := e.fn }
    nrxQueue p q e (x.staging.length + 1) (setPort p { x with staging := x.staging ++ [g] } d)

/-! ## Authority (R243, R244) -/

/-- An authority field (R243): EPOCH, FIT, hub B, ACTIVE, TAG. Big-endian, as the header fields of R422. -/
structure Authority where
  epoch : BitVec 32
  fit : Bool
  hubB : Bool
  act : Bool
  tag : Nat
deriving DecidableEq, Repr

/-- The authority field at an offset. -/
def authAt (f : List Byte) (o : Nat) : Authority :=
  let b := nth 0 f (o + 4)
  { epoch := BitVec.ofNat 32 (bfld f o 4), fit := b.getLsbD 0, hubB := b.getLsbD 1, act := b.getLsbD 2
    tag := bfld f (o + 6) 2 }

/-- The field belongs to the device's pair. -/
def authTag (d : Device) (a : Authority) : Bool := a.tag = (cfg d).pairTag.toNat % 65536

/-- Offset of the authority field of an AVTP packet: after an AAF packet's stream data, at 0x18 of a metadata packet
(R423). -/
def authOff (f : List Byte) : Nat :=
  let o := l3Off f
  if nth 0 f o = 0x6F then o + 0x18 else o + 24 + bfld f (o + 20) 2

/-- The peer was heard with an epoch (R223, R247, R250): an active peer that ranks above an active hub makes it demote
at the next tick. -/
def peerHeard (epoch : BitVec 32) (active : Bool) (d : Device) : Device :=
  if !paired d then d
  else
    let p := d.pair
    let peerIsA := (cfg d).pairId = 2
    let above := active && (p.st = .active || p.st = .withdrawn) && ranksAbove epoch peerIsA p.epoch
    { d with pair := { p with
      peerEpoch := if epoch.toNat > p.peerEpoch.toNat then epoch else p.peerEpoch
      outranked := if above then some epoch else p.outranked } }

/-- A packet of PEER_STREAM (R222, R247). -/
def peerStream (f : List Byte) (d : Device) : Device :=
  let a := authAt f (authOff f)
  if !paired d || !isAvtp f || avtpId f ≠ (cfg d).peerStream.toNat || !authTag d a then d
  else
    let d := when a.act (fun d => { d with pair := { d.pair with streamSilence := 0 } }) d
    peerHeard a.epoch a.act d

/-! ## End of a frame (R405, R408, R411, R413, R224) -/

/-- A received PAUSE frame (R411): counted; obeyed with PAUSE_EN set. (log 98: DEDUCED, unsafe.) -/
def pauseFrame (p : Nat) (f : List Byte) (e : Env) (d : Device) : Device :=
  let q := portAt d p
  if etherType f ≠ 0x8808 || bfld f (l3Off f) 2 ≠ 1 then d
  else
    let d := bumpStat p 6 1 e d
    let mine := f.take 6 == [0x01#8, 0x80#8, 0xC2#8, 0x00#8, 0x00#8, 0x01#8] || f.take 6 == macBytes q.mac
    if !mine || !q.pauseEn then d
    else
      let n := bfld f (l3Off f + 2) 2
      bumpStat p 38 n e (modPort p (fun x => { x with paused := decide (n ≠ 0), pauseQuanta := n }) d)

/-- A drawbar frame is kept where its EtherType and PAIR_TAG fit; every other frame on M2 is discarded and counted
(R224). Its message acts by a command of its own. -/
def drawbarFrame (f : List Byte) (d : Device) : Device :=
  let ok := bfld f 12 2 = 0x88B5 && f.length ≤ 9018 && fld f 18 4 = (cfg d).pairTag.toNat
  if ok then d else modPort 2 (fun x => { x with m2Discard := inc32 x.m2Discard }) d

/-- A good frame: its counters and its destination. -/
def rxGood (p : Nat) (f : List Byte) (now : Option (RxDest × BitVec 32 × Bool)) (e : Env) (d : Device) : Device :=
  let len := f.length + 4
  let d := bumpStat p 0 1 e d
  let d := bumpStat p 1 (len / 64) e d
  let d := bumpStat p (2 + daClass f) 1 e d
  let d := when (tagged f) (bumpStat p 5 1 e) d
  let d := bumpStat p (7 + sizeClass len) 1 e d
  let d := when (p < 2) (peerStream f) d
  match now with
  | none => d
  | some (dest, ts, valid) =>
    match dest with
    | .daDrop => bumpStat p 20 1 e d
    | .drop => bumpStat p 21 1 e d
    | .control => pauseFrame p f e d
    | .drawbar => drawbarFrame f (pauseFrame p f e d)
    | .stream s => bumpStat p 22 1 e (modPort p (fun x => { x with streamNow := some s }) d)
    | .queue q rule => stageFrame p q rule f ts valid e d

/-- RX_FRAME_END: the frame's checks, and its destination where it is good.
(log 97: DEDUCED, unsafe; log 115: DESIGN CHOICE, safe.) -/
def rxFrameEnd (p : Nat) (f : List Byte) (fcsOk codeErr : Bool) (e : Env) (d : Device) : Device :=
  let q := portAt d p
  if !q.link then d
  else
    let len := f.length + 4
    let d := setPort p { q with rxNow := none } d
    if codeErr then bumpStat p 19 1 e d
    else if len < 64 then bumpStat p (if fcsOk then 15 else 16) 1 e d
    else if len > maxFrame d p then bumpStat p (if fcsOk then 17 else 18) 1 e d
    else if !fcsOk then bumpStat p 14 1 e d
    else rxGood p f q.rxNow e d

/-! ## The stream engine (R122 to R124, R417 to R422) -/

/-- A sequence number is remembered as taken: the last 128. -/
def remember (q : Byte) (l : List Byte) : List Byte := (q :: l).take 128

/-- A packet of an AVTP slot is taken on a path; none where its sequence number was taken before (R417, R124). -/
def takeSeq (both : Bool) (p : Nat) (q : Byte) (s : RxSeq) : Option RxSeq :=
  if both || p = 0 then
    if s.taken0.contains q then none else some { s with taken0 := remember q s.taken0, seq0 := some q }
  else if s.taken1.contains q then none
  else some { s with taken1 := remember q s.taken1, seq1 := some q }

def setSeq (slot : Nat) (s : RxSeq) (d : Device) : Device :=
  { d with inp := { d.inp with rxSeq := mset {} d.inp.rxSeq slot s } }

/-- Slot `i` of a frame held on a path gets a sample. -/
def putSample (n : Nat) (k : BitVec 32) (i : Nat) (v : Int) (l : List RxFrame) : List RxFrame :=
  let f := (l.find? (fun f => f.frame = k)).getD { frame := k, slots := List.replicate n none }
  l.filter (fun f => f.frame ≠ k) ++ [{ f with slots := f.slots.set i (some v) }]

/-- One received sample of a slot's channel (R123): early and late ones are discarded and counted.
(log 100: DEDUCED, unsafe.) -/
def rxSample (p slot c : Nat) (k : BitVec 32) (i : Nat) (v : Int) (e : Env) (d : Device) : Device :=
  if later k (e.fn + 32) then modRxCnt slot (fun q => { q with early := inc32 q.early }) d
  else if earlier k e.fn then modRxCnt slot (fun q => { q with late := inc32 q.late }) d
  else
    let put : RxBuf → RxBuf := fun b =>
      if p = 0 then { b with p0 := putSample (nSmp d) k i v b.p0 } else { b with p1 := putSample (nSmp d) k i v b.p1 }
    { d with inp := { d.inp with bufs := mmod {} d.inp.bufs (64 * slot + c) put } }

/-- Samples of a packet from slot `i` of frame `k` on: one list of channels per sample period (R122).
(log 100: DEDUCED, unsafe.) -/
def rxSamples (p slot : Nat) (s : RxSlot) (k : BitVec 32) (i : Nat) (l : List (List Int)) (e : Env) (d : Device) : Device :=
  forAll l.zipIdx (fun x d =>
    let g := i + x.2
    forAll (x.1.take s.ch).zipIdx (fun y d =>
      rxSample p slot y.2 (k + BitVec.ofNat 32 (g / nSmp d)) (g % nSmp d) y.1 e d) d) d

/-- RX_OFFSET of a slot (R122). -/
def rxOffset (s : RxSlot) : Nat := s.rxOffset.getD (if s.format = 2 then 6 else 0)

/-- A packet the stream engine discards (R417). -/
def streamBad (p : Nat) (e : Env) (d : Device) : Device := bumpStat p 23 1 e d

/-- Words of a payload, `w` bytes each, as PCM: INT_32 takes bits [31:8], INT_16 is shifted left by 8 (R418). -/
def pcmWord (w : Nat) (f : List Byte) (o : Nat) : Int :=
  let v := sext (8 * w) (bfld f o w)
  if w = 4 then Int.fdiv v 256 else if w = 2 then v * 256 else v

/-- Samples of a payload at an offset: `m` periods of `ch` channels. -/
def pcmBlock (f : List Byte) (o w ch m : Nat) : List (List Int) :=
  (List.range m).map (fun j => (List.range ch).map (fun c => pcmWord w f (o + w * (j * ch + c))))

/-- The media sample period of an avtp_timestamp (R122): frame and index. The period is nominal; the boundary is the
latest tick. A tie goes to the later period. (log 100: DEDUCED, unsafe.) -/
def aafPeriod (d : Device) (e : Env) (ts : Nat) : BitVec 32 × Nat :=
  let t : Int := (d.clk.time.toNat : Int)
  let diff : Int := sext 72 (uext 72 ((ts : Int) * (pow2 40 : Nat) - t))
  let x : Int := Int.fdiv (2 * diff * fsHz d + (pow2 40 : Nat) * 1000000000) (2 * (pow2 40 : Nat) * 1000000000)
  let n : Int := nSmp d
  (BitVec.ofInt 32 ((e.fn.toNat : Int) + Int.fdiv x n), (Int.fmod x n).toNat)

/-- A hub's packet for its slot (R243 to R245): its authority counts for the frames it carries. -/
def hubPacket (hub : Nat) (a : Authority) (cand : Bool) (frames : List (BitVec 32)) (d : Device) : Device :=
  let add : HubSeen → HubSeen := fun h =>
    if cand then { h with cands := h.cands ++ frames.map (fun k => (k, a.epoch, a.fit)) } else h
  let addA : HubSeen → HubSeen := fun h => { add h with audio := h.audio ++ frames.map (fun k => (k, a.fit)) }
  if hub = 1 then { d with pair := { d.pair with hubA := addA d.pair.hubA } }
  else if hub = 2 then { d with pair := { d.pair with hubB := addA d.pair.hubB } }
  else d

/-- The spoke has a HUB_OBJ source (R244). -/
def hasHubObj (d : Device) : Bool := d.inp.rx.any (fun s => s.2.format = 4)

/-- A slot with HUB set takes only its own hub's packets of its pair (R417). -/
def hubOk (d : Device) (s : RxSlot) (a : Authority) : Bool := s.hub = 0 || (a.hubB = decide (s.hub = 2) && authTag d a)

/-- The packet that the stream engine holds for a port, once its FCS has checked good: its slot. -/
def takeStream (p : Nat) (d : Device) : Option (Nat × RxSlot) :=
  match (portAt d p).streamNow with
  | none => none
  | some s => some (s, slotAt d s)

def dropStream (p : Nat) (d : Device) : Device := modPort p (fun x => { x with streamNow := none }) d

/-- AAF_RX: an AAF packet (R418). (log 96: PRESUMED, unsafe.) -/
def aafRx (p : Nat) (f : List Byte) (e : Env) (d : Device) : Device :=
  match takeStream p d with
  | none => d
  | some (slot, s) =>
    if !(s.format = 1 || s.format = 4 || s.format = 5) || !slotMatch p s f then d
    else
      let d := dropStream p d
      let o := l3Off f
      let fmt := fld f (o + 16) 1
      let w := if fmt = 2 then 4 else if fmt = 3 then 3 else 2
      let cpf := bfld f (o + 17) 2 % 1024
      let len := bfld f (o + 20) 2
      let tv := (nth 0 f (o + 1)).getLsbD 0
      let sp := (nth 0 f (o + 22)).getLsbD 4
      let seq := nth 0 f (o + 2)
      let a := authAt f (authOff f)
      let ok := nth 0 f o = 2 && fld f (o + 1) 1 / 16 % 8 = 0 && 2 ≤ fmt && fmt ≤ 4
        && fld f (o + 17) 1 / 16 = (if (cfg d).fs96 then 7 else 5)
        && cpf ≠ 0 && len % (cpf * w) = 0 && o + 24 + len + (if s.hub = 0 then 0 else 8) ≤ f.length
        && (tv || sp) && hubOk d s a
      if !ok then streamBad p e d
      else
        let st := mget {} d.inp.rxSeq slot
        match takeSeq false p seq st with
        | none => d
        | some st2 =>
          let prev := if p = 0 then st.seq0 else st.seq1
          let cont := if p = 0 then st.next0 else st.next1
          let at_ : Option (BitVec 32 × Nat) :=
            if tv then
              let q := aafPeriod d e (bfld f (o + 12) 4)
              some (q.1 + BitVec.ofNat 32 (rxOffset s), q.2)
            else if prev.map (· + 1) = some seq then cont else none
          match at_ with
          | none => streamBad p e d
          | some (k, i) =>
            let m := len / (cpf * w)
            let g := i + m
            let next : BitVec 32 × Nat := (k + BitVec.ofNat 32 (g / nSmp d), g % nSmp d)
            let st3 := if p = 0 then { st2 with next0 := some next } else { st2 with next1 := some next }
            let frames := (List.range ((g + nSmp d - 1) / nSmp d)).map (fun (j : Nat) => k + BitVec.ofNat 32 j)
            let d := hubPacket s.hub a (s.format = 5 && !hasHubObj d) frames (setSeq slot st3 d)
            rxSamples p slot s k i (pcmBlock f (o + 24) w cpf m) e d

/-- The ones' complement sum of 16-bit words (RFC 1071). -/
def onesSum (l : List Byte) : Nat :=
  let rec go : List Byte → Nat
    | [] => 0
    | [a] => a.toNat * 256
    | a :: b :: r => a.toNat * 256 + b.toNat + go r
  let fold := fun (x : Nat) => x % 65536 + x / 65536
  fold (fold (go l))

/-- The frame number congruent to `f` modulo 2^32 / N that lies nearest to FN (R122). -/
def nearFrame (n : Nat) (fn : BitVec 32) (f : Nat) : BitVec 32 :=
  let m := pow2 32 / n
  let x := (f + m - fn.toNat % m) % m
  if x < m / 2 then fn + BitVec.ofNat 32 x else fn - BitVec.ofNat 32 (m - x)

/-- AES67_RX: an AES67 RTP packet (R420). (log 96: PRESUMED, unsafe.) -/
def aes67Rx (p : Nat) (f : List Byte) (e : Env) (d : Device) : Device :=
  match takeStream p d with
  | none => d
  | some (slot, s) =>
    if s.format ≠ 2 || !slotMatch p s f then d
    else
      let d := dropStream p d
      let o := l3Off f
      let u := o + 20
      let r := o + 28
      let ipLen := bfld f (o + 2) 2
      let udpLen := bfld f (u + 4) 2
      let pseudo := sub f (o + 12) 8 ++ [0#8, 17#8] ++ beBytes 2 udpLen
      let b0 := fld f r 1
      let w := if s.streamId.toNat / pow2 56 = 1 then 2 else 3
      let pt := s.streamId.toNat / pow2 48 % 256
      let ext := if bit b0 4 then 4 + 4 * bfld f (r + 12 + 4 * (b0 % 16) + 2) 2 else 0
      let start := r + 12 + 4 * (b0 % 16) + ext
      let stop := u + udpLen - (if bit b0 5 then fld f (u + udpLen - 1) 1 else 0)
      let ok := fld f o 1 = 0x45 && onesSum (sub f o 20) = 0xFFFF && bfld f (o + 6) 2 % 16384 = 0
        && o + ipLen ≤ f.length && udpLen + 20 ≤ ipLen && 20 ≤ udpLen
        && (bfld f (u + 6) 2 = 0 || onesSum (pseudo ++ sub f u udpLen) = 0xFFFF)
        && b0 / 64 = 2 && (pt = 0 || fld f (r + 1) 1 % 128 = pt)
        && start ≤ stop && (stop - start) % (w * s.ch) = 0
      if !ok then streamBad p e d
      else
        let n := nSmp d
        let t := (bfld f (r + 4) 4 + pow2 32 - s.rtpOff.toNat) % pow2 32
        let k := nearFrame n e.fn (t / n) + BitVec.ofNat 32 (rxOffset s)
        rxSamples p slot s k (t % n) (pcmBlock f start w s.ch ((stop - start) / (w * s.ch))) e d

/-- METADATA_RX: a metadata packet offers its records (R422, R124, R57). -/
def metadataRx (p : Nat) (f : List Byte) (e : Env) (d : Device) : Device :=
  match takeStream p d with
  | none => d
  | some (slot, s) =>
    if s.format ≠ 3 || !slotMatch p s f then d
    else
      let d := dropStream p d
      let o := l3Off f
      let len := bfld f (o + 0x16) 2
      let n := (len - 8) / 32
      let recs := (List.range n).map (fun i => sub f (o + 0x20 + 32 * i) 32)
      let a := authAt f (o + 0x18)
      let stamps := (recs.map recStamp).eraseDups
      let ok := nth 0 f o = 0x6F && fld f (o + 1) 1 / 16 % 8 = 0 && (nth 0 f (o + 1)).getLsbD 0
        && sub f (o + 0x10) 6 == macBytes Config.vendor
        && len = 8 + 32 * n && 1 ≤ n && n ≤ 44 && o + 0x18 + len ≤ f.length
        && stamps.length = 1 && hubOk d s a
      if !ok then streamBad p e d
      else
        match takeSeq true p (nth 0 f (o + 2)) (mget {} d.inp.rxSeq slot) with
        | none => d
        | some st =>
          let d := setSeq slot st d
          let d := when (hasHubObj d) (fun d =>
            let add : HubSeen → HubSeen := fun h => { h with cands := h.cands ++ stamps.map (fun k => (k, a.epoch, a.fit)) }
            if s.hub = 1 then { d with pair := { d.pair with hubA := add d.pair.hubA } }
            else if s.hub = 2 then { d with pair := { d.pair with hubB := add d.pair.hubB } }
            else d) d
          forAll recs (fun r d => recordIn .stream s.hub r e d) d

/-! ## Commands -/

/-- RX_CLASSIFY (R408). -/
def execRxClassify (port : Nat) (head : List Byte) (cyc : Nat) (s : State) : Host.Outcome State Fault Refusal :=
  act (fun _ d => when (port < 4) (rxClassify port head cyc) d) s

/-- RX_FRAME_END (R405). -/
def execRxFrameEnd (port : Nat) (frame : List Byte) (fcsOk codeErr : Bool) (s : State) :
    Host.Outcome State Fault Refusal :=
  act (fun e d => when (port < 4) (rxFrameEnd port frame fcsOk codeErr e) d) s

/-- AAF_RX (R418). -/
def execAafRx (port : Nat) (packet : List Byte) (s : State) : Host.Outcome State Fault Refusal :=
  act (fun e d => when (port < 2) (aafRx port packet e) d) s

/-- AES67_RX (R420). -/
def execAes67Rx (port : Nat) (packet : List Byte) (s : State) : Host.Outcome State Fault Refusal :=
  act (fun e d => when (port < 2) (aes67Rx port packet e) d) s

/-- METADATA_RX (R422). -/
def execMetadataRx (port : Nat) (packet : List Byte) (s : State) : Host.Outcome State Fault Refusal :=
  act (fun e d => when (port < 2) (metadataRx port packet e) d) s

/-- PAUSE_EXPIRE: the pause time of a port ends (R411). -/
def execPauseExpire (port : Nat) (s : State) : Host.Outcome State Fault Refusal :=
  act (fun _ d => when (port < 4) (modPort port (fun x => { x with paused := false, pauseQuanta := 0 })) d) s

/-- Every counter of the port goes to its snapshot and clears (R414). -/
def statClear (port : Nat) (d : Device) : Device :=
  modPort port (fun x => { x with snap := x.stat, stat := [], half := [] }) d

/-- A read of TSQ_POP: the oldest capture entry is latched and removed; all four words read 0 where there is none (R436,
R522). -/
def tsqPop (port : Nat) (d : Device) : Device :=
  modPort port (fun x =>
    match x.tsq with
    | [] => { x with tsqW := [0, 0, 0, 0] }
    | t :: rest =>
      { x with tsq := rest
               tsqW := [t.htag, t.ts, BitVec.ofNat 32 (t.frac.toNat + 65536 * t.lost + 16777216 * t.cflags.toNat), t.fn] }) d

def execStatClr (port : Nat) (s : State) : Host.Outcome State Fault Refusal :=
  hostAct (fun _ d => when (port < 4) (statClear port) d) s

def execTsqPop (port : Nat) (s : State) : Host.Outcome State Fault Refusal :=
  hostAct (fun _ d => when (port < 4) (tsqPop port) d) s

end Sys2Proof.Machine
end

