-- ==== Sys2Proof/Machine/EthTx.lean ====
section
/-! DEFINITION. Ethernet transmission (chapter 14, R279, R432 to R437): media packets and their authority field, the
media load check, the scheduler of a port, host transmit queues, departure stamps, low-power idle, the link and the
function reset of a port. -/
namespace Sys2Proof.Machine

/-! ## Media packets (R419 to R424) -/

/-- The 8-byte authority field of a hub (R243); a spoke sends none (R423). -/
def authorityOf (d : Device) : List Byte :=
  if d.pwr.spoke then []
  else
    let p := d.pair
    let single := p.st = .single
    let flags := ofBits [isFit p, !single && isHubB d, isActive p, isSync p]
    beBytes 4 (if single then 1 else p.epoch.toNat) ++ leBytes 1 flags ++ leBytes 1 (pairNum p.st)
      ++ beBytes 2 ((cfg d).pairTag.toNat % 65536)

/-- Every packet of the frame that begins carries this field (R243). (log 136: DEDUCED, unsafe.) -/
def latchAuthority (d : Device) : Device := { d with pair := { d.pair with authority := authorityOf d } }

/-- Ethernet header with the slot's VLAN tag (R292, R427). -/
def ethHead (d : Device) (p : Nat) (s : TxSlot) (etype : Nat) : List Byte :=
  macBytes s.dest ++ macBytes (portAt d p).mac ++ beBytes 2 0x8100 ++ beBytes 2 s.vlan.toNat ++ beBytes 2 etype

/-- TIME_NS of sample `j` of the frame that begins `ahead` frames after the latest tick, rounded to the nearest ns or
down (R419, R422). Frame and sample periods are nominal. -/
def presTime (d : Device) (ahead j : Nat) (nearest : Bool) : Nat :=
  let fs := fsHz d
  let num := d.clk.time.toNat * fs + (ahead * nSmp d + j) * 1000000000 * pow2 40
  let den := fs * pow2 40
  ((if nearest then (2 * num + den) / (2 * den) else num / den)) % pow2 32

/-- SPP of an AAF stream (R419). -/
def sppOf (n ch : Nat) : Nat :=
  ([n, n / 2, n / 4].find? (fun k => ch * k * 3 ≤ 1440)).getD (n / 8)

/-- One AAF packet of `ch` channels: samples by period (R419). (log 96: PRESUMED, unsafe.) -/
def aafPacket (d : Device) (p : Nat) (s : TxSlot) (seq : BitVec 16) (ts : Nat) (l : List (List Int)) : List Byte :=
  let data := l.flatMap (fun x => x.flatMap (fun v => beBytes 3 (uext 24 v)))
  let nsr := if (cfg d).fs96 then 7 else 5
  ethHead d p s 0x22F0
    ++ [0x02#8, BitVec.ofNat 8 (0x81 + 8 * d.eth.mr.toNat), seq.setWidth 8, 0#8]
    ++ beBytes 8 s.streamId.toNat ++ beBytes 4 ts ++ [0x03#8] ++ beBytes 2 (nsr * 4096 + s.ch) ++ [24#8]
    ++ beBytes 2 data.length ++ [0#8, 0#8] ++ data ++ d.pair.authority

/-- One AES67 packet (R420, R423). -/
def aes67Packet (d : Device) (p slot : Nat) (s : TxSlot) (seq : BitVec 16) (k : BitVec 32) (l : List (List Int)) :
    List Byte :=
  let l16 := s.streamId.toNat / pow2 56 = 1
  let data := l.flatMap (fun x => x.flatMap (fun v =>
    if l16 then beBytes 2 (uext 16 (Int.fdiv v 256)) else beBytes 3 (uext 24 v)))
  let auth := d.pair.authority
  let ext := if auth.isEmpty then [] else [0xBE#8, 0xDE#8, 0#8, 3#8, 0x57#8] ++ auth ++ zeros 3
  let q := portAt d p
  let port := s.streamId.toNat / pow2 32 % 65536
  let pt := s.streamId.toNat / pow2 48 % 256
  let rtp := [BitVec.ofNat 8 (if auth.isEmpty then 0x80 else 0x90), BitVec.ofNat 8 (pt % 128)]
    ++ beBytes 2 seq.toNat ++ beBytes 4 (((k.toNat + 2) * nSmp d) % pow2 32)
    ++ beBytes 4 (q.ipv4 ^^^ BitVec.ofNat 32 slot).toNat ++ ext ++ data
  let udp := beBytes 2 port ++ beBytes 2 port ++ beBytes 2 (8 + rtp.length) ++ [0#8, 0#8] ++ rtp
  let ip0 := [0x45#8, 0x88#8] ++ beBytes 2 (20 + udp.length) ++ [0#8, 0#8, 0x40#8, 0#8, 32#8, 17#8]
  let ip1 := beBytes 4 q.ipv4.toNat ++ beBytes 4 (s.streamId.toNat % pow2 32)
  let sum := 0xFFFF - onesSum (ip0 ++ ip1)
  ethHead d p s 0x0800 ++ ip0 ++ beBytes 2 sum ++ ip1 ++ udp

/-- One metadata packet of records stamped alike (R422). -/
def metaPacket (d : Device) (p : Nat) (s : TxSlot) (seq : BitVec 16) (ts : Nat) (recs : List (List Byte)) : List Byte :=
  ethHead d p s 0x22F0
    ++ [0x6F#8, BitVec.ofNat 8 (0x81 + 8 * d.eth.mr.toNat), seq.setWidth 8, 0#8]
    ++ beBytes 8 s.streamId.toNat ++ beBytes 4 ts ++ macBytes Config.vendor ++ beBytes 2 (8 + 32 * recs.length)
    ++ d.pair.authority ++ recs.flatten

/-- A packet is queued on each of its slot's paths with the same number (R419, R424). -/
def sendMedia (slot : Nat) (s : TxSlot) (make : Nat → BitVec 16 → List Byte) (d : Device) : Device :=
  let seq := mget 0 d.eth.seq slot
  let d1 := forAll ((List.range 2).filter (fun p => bit s.paths p)) (fun p x =>
    modPort p (fun q => { q with media := q.media ++ [make p seq] }) x) d
  { d1 with eth := { d1.eth with seq := mset 0 d1.eth.seq slot (seq + 1) } }

/-- Pieces of a list, `n` at a time. -/
def chunks (n : Nat) (l : List α) : List (List α) :=
  (List.range ((l.length + n - 1) / n)).map (fun i => (l.drop (i * n)).take n)

/-- Columns to rows: samples by period from channels. -/
def byPeriod (n : Nat) (chans : List (List Int)) : List (List Int) :=
  (List.range n).map (fun j => chans.map (fun c => nth 0 c j))

/-- The packets of an AAF stream for one frame, presented from `ahead` frames after the latest tick (R419). -/
def sendAaf (slot : Nat) (s : TxSlot) (ahead : Nat) (chans : List (List Int)) (d : Device) : Device :=
  let n := nSmp d
  let spp := sppOf n s.ch
  forAll (chunks spp (byPeriod n chans)).zipIdx (fun x d =>
    sendMedia slot s (fun p seq => aafPacket d p s seq (presTime d ahead (x.2 * spp) true) x.1) d) d

/-- PCM of the output that feeds channel `c` of transmit slot `slot` in the launched frame; silence where none does or
nothing renders (R292, R424). -/
def streamChan (d : Device) (slot c : Nat) : List Int :=
  match sinkOut d.chn.sinks2 3 slot c with
  | some n => if d.pwr.rendering && (outAt d n).emitPcm ≠ [] then (outAt d n).emitPcm else List.replicate (nSmp d) 0
  | none => List.replicate (nSmp d) 0

/-- Packets of the launched output frame `k` = FN − 2 of a FORMAT 1 or 2 slot (R419, R420, R425). -/
def launchStream (k : BitVec 32) (slot : Nat) (d : Device) : Device :=
  let s := mget {} d.eth.tx2 slot
  let chans := if d.inp.streamReset = some k then List.replicate s.ch (List.replicate (nSmp d) 0)
    else (List.range s.ch).map (streamChan d slot)
  if s.format = 1 then sendAaf slot s 1 chans d
  else if s.format = 2 then sendMedia slot s (fun p seq => aes67Packet d p slot s seq k (byPeriod (nSmp d) chans)) d
  else d

/-- Metadata packets queued at tick k + 1: canonical records of frame k stamped k + 2 = FN + 1 (R56, R421). -/
def launchRecord (slot : Nat) (e : Env) (d : Device) : Device :=
  let s := mget {} d.eth.tx1 slot
  if d.pwr.spoke || s.format ≠ 3 then d
  else
    let objs := (List.range (min (s.first + 16 * s.ch) (nObj d))).drop s.first
    let recs := objs.map (fun o => recBytes (e.fn + 1) o (objAt d o).canon)
    forAll (chunks 44 recs) (fun r d =>
      sendMedia slot s (fun p seq => metaPacket d p s seq (presTime d 1 0 false) r) d) d

/-- What a tick queues, in increasing slot number (R424). -/
def launchStreams (k : BitVec 32) (e : Env) (d : Device) : Device :=
  forAll (List.range 128) (fun s d => launchRecord s e (launchStream k s d)) d

/-- Object audio of the input frame whose tasks run is rendered: not before frame S (R424). -/
def audioRuns (d : Device) : Bool := d.pwr.rendering && d.pwr.started

/-- The packets of an object-audio slot for input frame k = FN − 1 may be queued (R421, R424): every object in them has been
written, and every object-audio slot of a lower number has been served. (log 137: DEDUCED, safe.) -/
def audioReady (slot : Nat) (d : Device) : Bool :=
  let s := mget {} d.eth.tx1 slot
  !d.pwr.spoke && s.format = 4 && !d.eth.queued.contains slot
    && (!audioRuns d || ((List.range s.ch).map (s.first + ·)).all (fun o => (objAt d o).written || decide (o ≥ nObj d)))
    && d.eth.tx1.all (fun x => x.2.format ≠ 4 || decide (slot ≤ x.1) || d.eth.queued.contains x.1)

/-- OBJECT_AUDIO_QUEUE (R421): the packets of an object-audio slot; silence while nothing renders. -/
def objectAudio (slot : Nat) (e : Env) (d : Device) : Device :=
  if !audioReady slot d then d
  else
    let s := mget {} d.eth.tx1 slot
    let chans := ((List.range s.ch).map (s.first + ·)).map (fun o =>
      let l := (objAt d o).reemit
      if audioRuns d && l ≠ [] && d.inp.streamReset ≠ some (e.fn - 1) then l else List.replicate (nSmp d) 0)
    let d := sendAaf slot s 1 chans d
    { d with eth := { d.eth with queued := d.eth.queued ++ [slot] } }

/-- Bytes per second that a transmit slot charges to a port (R427). -/
def slotLoad (fs96 spoke : Bool) (nobj : Nat) (s : TxSlot) : Nat :=
  let n := if fs96 then 16 else 8
  let auth := if spoke then 0 else 8
  let perFrame :=
    if s.format = 1 || s.format = 4 then
      let spp := sppOf n s.ch
      (n / spp) * (14 + 4 + 24 + s.ch * spp * 3 + auth + 4 + 20)
    else if s.format = 2 then
      14 + 4 + 20 + 8 + 12 + (if spoke then 0 else 16) + s.ch * n * (if s.streamId.toNat / pow2 56 = 1 then 2 else 3) + 4 + 20
    else if s.format = 3 then
      let recs := min (s.first + 16 * s.ch) nobj - s.first
      32 * recs + ((recs + 43) / 44) * (14 + 4 + 32 + 4 + 20)
    else 0
  perFrame * 6000

/-- The media load of a port stays within 80 % of its line rate (R415, R427). -/
def loadFits (d : Device) (p : Nat) (tx : SMap TxSlot) : Bool :=
  let line := if (portAt d p).phy = 1 then 10000000000 else 25000000000
  let sum := ((tx.filter (fun x => bit x.2.paths p)).map (fun x => slotLoad (cfg d).fs96 d.pwr.spoke (nObj d) x.2)).sum
  decide (sum * 8 * 10 ≤ line * 8)

/-! ## Host transmit queues (R279) -/

/-- What the descriptors at the front of a transmit queue are: nothing complete, a frame to send, or a frame that is
given up with its TX_STATUS; entries spanned. -/
inductive NtxHead where
  | none | frame (f : TxHostFrame) | bad (span status : Nat)
deriving DecidableEq, Repr

/-- Descriptors of a queue from DIDX that the latest HIDX covers, `none` where a read fails. -/
def ntxDescs (e : Env) (d : Device) (r : Nat) : List (Option (List Byte)) :=
  let q := ringAt d r
  (List.range (covered q)).map (fun i => readEntry e d r (q.didx + BitVec.ofNat 32 i))

def ntxFirst (x : List Byte) : Bool := bit (fld x 0x0A 1) 0
def ntxLast (x : List Byte) : Bool := bit (fld x 0x0A 1) 1

/-- How many entries up to the next FIRST. -/
def toFirst : List (Option (List Byte)) → Nat
  | some x :: r => if ntxFirst x then 0 else 1 + toFirst r
  | none :: r => 1 + toFirst r
  | [] => 0

/-- The span of the frame that a FIRST begins: entries up to its LAST, or where the order breaks; none where it is not
covered yet. -/
def ntxSpan : List (Option (List Byte)) → Nat → Option (Nat × Nat)
  | [], _ => none
  | none :: _, n => some (n + 1, 4)
  | some x :: r, n =>
    if n ≠ 0 && ntxFirst x then some (n, 2)
    else if ntxLast x then some (n + 1, 0)
    else ntxSpan r (n + 1)

/-- The bytes of a frame's buffers, none where a read fails. -/
def ntxBytes (e : Env) (d : Device) : List (List Byte) → Option (List Byte)
  | [] => some []
  | x :: r =>
    match dmaRead e d (fld x 0 8) (fld x 8 2), ntxBytes e d r with
    | some a, some b => some (a ++ b)
    | _, _ => none

/-- The front of a transmit queue (R279, R405). -/
def ntxHead (e : Env) (d : Device) (p q : Nat) : NtxHead :=
  let r := 96 + 8 * p + q
  if !ringLive d r then .none
  else
    match ntxDescs e d r with
    | [] => .none
    | none :: _ => .bad 1 4
    | some x :: rest =>
      if !ntxFirst x then .bad (1 + toFirst rest) 2
      else
        match ntxSpan (some x :: rest) 0 with
        | none => .none
        | some (n, 0) =>
          let ds := (((some x : Option (List Byte)) :: rest).take n).filterMap id
          let lens := ds.map (fun y => fld y 8 2)
          let ok := ds.all (fun y => aligned64 (fld y 0 8)) && lens.all (fun l => 1 ≤ l && l ≤ 16384)
            && decide (lens.sum + 4 ≤ maxFrame d p)
          if !ok then .bad n 2
          else
            match ntxBytes e d ds with
            | none => .bad n 4
            | some b =>
              .frame { queue := q, bytes := b, flags := BitVec.ofNat 8 (fld x 0x0A 1), ptpOfs := fld x 0x0C 2
                       udpOfs := fld x 0x0E 2, htag := BitVec.ofNat 32 (fld x 0x10 4)
                       last := (ringAt d r).didx + BitVec.ofNat 32 (n - 1), span := n }
        | some (n, st) => .bad n st

/-- TX_STATUS of a frame of `span` entries at the front of a queue is written, then the index moves (R279). -/
def ntxDone (p q span status : Nat) (e : Env) (d : Device) : Device :=
  let r := 96 + 8 * p + q
  let x := ringAt d r
  let a := posAddr x (x.didx + BitVec.ofNat 32 (span - 1)) + 0x30
  moveRing r span false (post a (leBytes 2 status ++ zeros 2 ++ leBytes 4 e.fn.toNat ++ zeros 8) d)

/-- Give up the bad frames at the front of a queue. -/
def ntxClean (p q : Nat) (e : Env) : Nat → Device → Device
  | 0, d => d
  | n + 1, d =>
    match ntxHead e d p q with
    | .bad span st => ntxClean p q e n (ntxDone p q span st e d)
    | _ => d

/-- The next host frame of a port: queues 7 down to 0 (R410). -/
def ntxNext (p : Nat) (e : Env) : List Nat → Device → Device × Option TxHostFrame
  | [], d => (d, none)
  | q :: rest, d =>
    let d := ntxClean p q e (covered (ringAt d (96 + 8 * p + q))) d
    match ntxHead e d p q with
    | .frame f => (d, some f)
    | _ => ntxNext p e rest d

/-- Every covered frame of a transmit queue is flushed, whole or not (R279, R407). -/
def ntxFlushQueue (p q : Nat) (e : Env) (d : Device) : Device :=
  let one := fun (d : Device) =>
    match ntxHead e d p q with
    | .none => d
    | .bad span _ => ntxDone p q span 3 e d
    | .frame f => ntxDone p q f.span 3 e d
  iter one (covered (ringAt d (96 + 8 * p + q))) d

/-- Every transmit queue of a port is flushed (R407). (log 81: DEDUCED, unsafe.) -/
def ntxFlush (p : Nat) (e : Env) (d : Device) : Device := forAll (List.range 8) (fun q d => ntxFlushQueue p q e d) d

/-! ## The scheduler (R410 to R412) -/

/-- Start the next frame of a port, media first, then host queues 7 to 0. With the link down the frame is discarded,
counted, and a host frame completes as FLUSHED (R406). -/
def txBegin (p : Nat) (e : Env) (d : Device) : Device :=
  let x := portAt d p
  match x.media with
  | m :: rest =>
    if !x.link then bumpStat p 39 1 e (setPort p { x with media := rest } d)
    else setPort p { x with media := rest, txNow := some (m, none) } d
  | [] =>
    match ntxNext p e [7, 6, 5, 4, 3, 2, 1, 0] d with
    | (d, none) => d
    | (d, some f) =>
      if !x.link then bumpStat p 39 1 e (ntxDone p f.queue f.span 3 e d)
      else modPort p (fun y => { y with txNow := some (f.bytes, some f) }) d

/-- Some frame is ready on a port. -/
def txReady (p : Nat) (e : Env) (d : Device) : Bool :=
  !(portAt d p).media.isEmpty || (List.range 8).any (fun q => decide (ntxHead e d p q ≠ .none))

/-- TX_START: the scheduler's choice at a frame boundary. A port in low-power idle wakes first (R412). -/
def txStart (p : Nat) (e : Env) (d : Device) : Device :=
  let x := portAt d p
  if x.txNow.isSome || x.paused then d
  else if x.lpi = 0 then txBegin p e d
  else if x.lpi = 1 && txReady p e d then setPort p { x with lpi := 2 } d
  else d

/-! ## Departure (R405, R413, R432 to R437) -/

/-- The Internet checksum after bytes change from `old` to `new` (RFC 1624): HC' = ~(~HC + ~m + m'). -/
def csumUpdate (hc : Nat) (old new : List Byte) : Nat :=
  let neg := old.map (fun b => ~~~b)
  let x := (0xFFFF - hc) + onesSum neg + onesSum new
  let y := x % 65536 + x / 65536
  0xFFFF - (y % 65536 + y / 65536)

/-- Write bytes into a frame and, where it is asked and not zero, the UDP checksum (R434). Bytes at an odd offset from
the UDP header are summed in place with their neighbours. -/
def stampBytes (udp : Option Nat) (o : Nat) (new : List Byte) (f : List Byte) : List Byte :=
  let g := patch f o new
  match udp with
  | none => g
  | some u =>
    let hc := bfld f (u + 6) 2
    if hc = 0 then g
    else
      let lo := if (o + u) % 2 = 0 then o else o - 1
      let len := 2 * ((o + new.length - lo + 1) / 2)
      patch g (u + 6) (beBytes 2 (csumUpdate hc (sub f lo len) (sub g lo len)))

/-- Why a ONE_STEP frame goes out unchanged (R435): 0 where it is stamped. -/
def oneStepReason (d : Device) (f : TxHostFrame) : Nat :=
  if !d.clk.epochValid then 1
  else if f.ptpOfs > 192 || f.bytes.length < f.ptpOfs + 44 then 3
  else
    let t := fld f.bytes f.ptpOfs 1 % 16
    if fld f.bytes (f.ptpOfs + 1) 1 % 16 ≠ 2 || t > 2 then 2 else 0

/-- The frame with its departure time (R434): originTimestamp, correctionField, UDP checksum. -/
def oneStep (d : Device) (t : BitVec 72) (f : TxHostFrame) : List Byte :=
  let c := if t.toNat + pow2 71 < d.clk.time.toNat then { d.clk with wrapped := true } else d.clk
  let s := splitTime (sysTime c t)
  let udp := if f.udpOfs = 0xFFFF then none else some f.udpOfs
  let corr := sext 64 (bfld f.bytes (f.ptpOfs + 8) 8) + (s.2.2 / pow2 24 : Nat)
  let sat : Int := if corr > 9223372036854775807 then 9223372036854775807 else corr
  let b := stampBytes udp (f.ptpOfs + 34) (beBytes 6 s.1 ++ beBytes 4 s.2.1) f.bytes
  stampBytes udp (f.ptpOfs + 8) (beBytes 8 (uext 64 sat)) b

/-- Two-step capture (R436, R437). -/
def twoStep (p : Nat) (t : BitVec 72) (f : TxHostFrame) (e : Env) (d : Device) : Device :=
  let x := portAt d p
  if x.tsq.length ≥ 64 then
    let d := setPort p { x with tsqOvf := inc32 x.tsqOvf, tsqLost := min 255 (x.tsqLost + 1) } d
    raiseLim p 0x201A (1 + p) (leBytes 4 (inc32 x.tsqOvf)) e d
  else
    let ent : TsqEntry := { htag := f.htag, ts := BitVec.ofNat 32 (t.toNat / pow2 40)
                            frac := BitVec.ofNat 16 (t.toNat / pow2 24), lost := x.tsqLost, cflags := 1, fn := e.fn }
    setPort p { x with tsq := x.tsq ++ [ent], tsqLost := 0 } d

/-- TX_DEPARTURE: the frame in transmission leaves, `cyc` cycles of CLK_CORE after the latest tick.
(log 101: DEDUCED, unsafe.) -/
def txDeparture (p cyc : Nat) (e : Env) (d : Device) : Device :=
  let x := portAt d p
  match x.txNow with
  | none => d
  | some (bytes, host) =>
    let t := BitVec.ofInt 72 (((timeAfter d.clk cyc).toNat : Int) + adjUnits x.txAdj)
    let one := host.any (fun f => f.flags.getLsbD 2)
    let reason := match host with | some f => if one then oneStepReason d f else 0 | none => 0
    let out := match host with | some f => if one && reason = 0 then oneStep d t f else bytes | none => bytes
    let wire := out ++ zeros (60 - out.length)
    let len := wire.length + 4
    let d := setPort p { x with txNow := none, sentLog := x.sentLog ++ [wire] } d
    let d := bumpStat p 25 1 e d
    let d := bumpStat p 26 (len / 64) e d
    let d := bumpStat p (27 + daClass wire) 1 e d
    let d := when host.isNone (bumpStat p 30 1 e) d
    let d := bumpStat p (31 + sizeClass len) 1 e d
    let d := when (reason ≠ 0) (fun d =>
      raiseLim p 0x2019 (1 + p) (leBytes 1 reason) e
        (modPort p (fun y => { y with oneStepFail := inc32 y.oneStepFail }) d)) d
    match host with
    | none => d
    | some f =>
      let d := when (f.flags.getLsbD 3) (twoStep p t f e) d
      ntxDone p f.queue f.span 1 e d

/-! ## Low-power idle, link, reset (R406, R407, R412) -/

/-- EEE_LPI_ENTER: every transmit source of M3 has been empty for EEE_IDLE. -/
def lpiEnter (e : Env) (d : Device) : Device :=
  let x := portAt d 3
  if !x.eeeEn || !x.link || x.lpi ≠ 0 || x.txNow.isSome || txReady 3 e d then d
  else bumpStat 3 40 1 e (setPort 3 { x with lpi := 1 } d)

/-- EEE_WAKE: the wake time has passed and the held frame starts. -/
def eeeWake (e : Env) (d : Device) : Device :=
  let x := portAt d 3
  if x.lpi ≠ 2 then d
  else
    let d := setPort 3 { x with lpi := 0 } d
    if x.paused || x.txNow.isSome then d else txBegin 3 e d

/-- LINK_DOWN: loss of block lock or of the PHY's link (R406, R414). -/
def linkDown (p : Nat) (e : Env) (d : Device) : Device :=
  let x := portAt d p
  if !x.link then d
  else raise 0x2016 (1 + p) [] e (bumpStat p 41 1 e (setPort p { x with link := false, rxNow := none, lpi := 0 } d))

/-- Speed code of a port (R414). -/
def linkSpeed (d : Device) (p : Nat) : Nat := if p = 3 then 0 else if p = 2 || (portAt d p).phy = 1 then 1 else 2

/-- LINK_UP: lock has held for 10 ms; a function reset of the port completes (R406, R407). In the quiet state the ports
are down (R487). -/
def linkUp (p : Nat) (e : Env) (d : Device) : Device :=
  let x := portAt d p
  if x.link || d.pwr.quiet then d
  else
    let d := raise 0x1010 (1 + p) (leBytes 1 (linkSpeed d p)) e (setPort p { x with link := true, resetting := none } d)
    match x.resetting with
    | some (uid, _) => finishUid uid 0 [] e d
    | none => d

/-- A function reset of a port at its AF (R407). The frame in transmission completes first (its departure is taken as the
tick's); the restart takes the link down. (log 101: DEDUCED, unsafe.) -/
def portReset (p : Nat) (uid : BitVec 32) (e : Env) (d : Device) : Device :=
  let d := ntxFlush p e (txDeparture p 0 e d)
  let d := modPort p (fun x => { x with staging := [], paused := false, pauseQuanta := 0 }) d
  let d := linkDown p e d
  modPort p (fun x => { x with resetting := some (uid, 0) }) d

/-- PORT_RESET_TIMEOUT: 600 frames without link complete the command (R407). -/
def portResetTimeout (p : Nat) (e : Env) (d : Device) : Device :=
  match (portAt d p).resetting with
  | some (uid, n) =>
    if n < 600 then d else finishUid uid 0 [] e (modPort p (fun x => { x with resetting := none }) d)
  | none => d

/-- What a tick does to the ports: the frames of a reset are counted. -/
def portTick (d : Device) : Device :=
  { d with eth := { d.eth with
    queued := []
    ports := mmap {} (fun _ (x : Port) =>
      { x with sentLog := [], resetting := x.resetting.map (fun r => (r.1, r.2 + 1)) }) d.eth.ports } }

/-! ## Commands -/

/-- TX_START (R410). -/
def execTxStart (port : Nat) (h : HostView) (s : State) : Host.Outcome State Fault Refusal :=
  actH h (fun e d => when (port < 4) (txStart port e) d) s

/-- TX_DEPARTURE (R279). -/
def execTxDeparture (port cyc : Nat) (s : State) : Host.Outcome State Fault Refusal :=
  act (fun e d => when (port < 4) (txDeparture port cyc e) d) s

/-- EEE_LPI_ENTER (R412). -/
def execEeeLpiEnter (s : State) : Host.Outcome State Fault Refusal := act lpiEnter s

/-- EEE_WAKE (R412). -/
def execEeeWake (s : State) : Host.Outcome State Fault Refusal := act eeeWake s

/-- LINK_DOWN (R406). -/
def execLinkDown (port : Nat) (s : State) : Host.Outcome State Fault Refusal :=
  act (fun e d => when (port < 4) (linkDown port e) d) s

/-- LINK_UP (R406). -/
def execLinkUp (port : Nat) (s : State) : Host.Outcome State Fault Refusal :=
  act (fun e d => when (port < 4) (linkUp port e) d) s

/-- PORT_RESET_TIMEOUT (R407). -/
def execPortResetTimeout (port : Nat) (s : State) : Host.Outcome State Fault Refusal :=
  act (fun e d => when (port < 4) (portResetTimeout port e) d) s

/-- OBJECT_AUDIO_QUEUE (R421). -/
def execObjectAudioQueue (slot : Nat) (s : State) : Host.Outcome State Fault Refusal :=
  act (fun e d => when (slot < 128) (objectAudio slot e) d) s

end Sys2Proof.Machine
end

