-- ==== Sys2Proof/Machine/Decim.lean ====
section
/-! DEFINITION. Decimation chains (R133, R205 to R210): the CIC, half-band and compensation stages, the trims, the
high-pass and the threshold detectors, with their reset, stuck and detector events. -/
namespace Sys2Proof.Machine

/-! ## Configuration of a chain (R206, R207) -/

/-- f_bs / fs. -/
def decRatio (fs96 : Bool) (rate : Nat) : Nat := (if fs96 then 64 else 128) * (if rate = 1 then 2 else 1)

/-- CIC_DEC, HB_COUNT and HPF_EN with the defaults of the range lines. -/
def cicDecOf (fs96 : Bool) (c : Dec) : Nat := c.cicDec.getD (if decRatio fs96 c.bsRate = 256 then 32 else 16)
def hbOf (fs96 : Bool) (c : Dec) : Nat := c.hbCount.getD (Nat.log2 (decRatio fs96 c.bsRate / cicDecOf fs96 c))
def hpfOf (reserved : Bool) (c : Dec) : Bool := c.hpfEn.getD (!reserved)

/-- The equation CIC_DEC × 2^HB_COUNT = f_bs / fs. -/
def decConsistent (fs96 : Bool) (c : Dec) : Bool := cicDecOf fs96 c * pow2 (hbOf fs96 c) = decRatio fs96 c.bsRate

/-- F_S = ceil(GD × 6,000) (R206, R209), from GD as a rational over 2 × f_bs. -/
def fillFrames (fs96 : Bool) (c : Dec) : Nat :=
  let fbs := 6144000 * (if c.bsRate = 1 then 2 else 1)
  let dec := cicDecOf fs96 c
  let hb := (List.range (hbOf fs96 c)).foldl (fun a i => a + 22 * dec * pow2 i) 0
  let num := c.cicOrder * (dec - 1) + hb + 2 * c.firGd * decRatio fs96 c.bsRate
  (num * 6000 + 2 * fbs - 1) / (2 * fbs)

/-! ## Held filters (R206) -/

/-- The half-band taps, tap m = t + 11. -/
def hbTaps : List F36 :=
  -- sinc(t/2) / 2 = sin(π t / 2) / (π t); the factor 1/π cancels
  let h : Int → Int := fun t =>
    let w := fxKaiser 4225 100 t 12
    let v := if t > 0 then Int.fdiv w t else -(Int.fdiv w (-t))
    if t % 4 = 1 then v else -v
  let odd : List Int := (List.range 12).map (fun (i : Nat) => 2 * (i : Int) - 11)
  let s := odd.foldl (fun a t => a + h t) 0
  let k : Int → Int := fun t => fxRound (Int.fdiv (h t * (pow2 fxBits : Nat)) (2 * s)) 26
  let e : Int := pow2 25 - odd.foldl (fun a t => a + k t) 0
  (List.range 23).map (fun (m : Nat) =>
    let t : Int := (m : Int) - 11
    let v : Int := if t = 0 then pow2 25 else if t % 2 = 0 then 0
      else if t = 1 || t = -1 then k t + Int.fdiv e 2 else k t
    ofDy ⟨v, -26⟩)

/-- x^k of a real. -/
def fxPowN (x : Int) : Nat → Int
  | 0 => fxOne
  | n + 1 => fxMul (fxPowN x n) x

/-- A_k = 1 / H(k fs / 63) of the CIC response. -/
def droopA (order dec ratio k : Nat) : Int :=
  if k = 0 then fxOne
  else if k > 28 then 0
  else
    let s := fxSinPi (k * dec) (63 * ratio)
    let t := (dec : Int) * fxSinPi k (63 * ratio)
    fxPowN (fxDiv t s) order

/-- The default compensation FIR: 63 taps that sum to exactly 1.0. -/
def droopFir (order dec ratio : Nat) : List F36 :=
  let a := (List.range 32).map (droopA order dec ratio)
  let h : Nat → Int := fun m =>
    let s := (List.range 31).foldl (fun acc i =>
      acc + fxMul (nth 0 a (i + 1)) (fxCosPi (2 * (i + 1) * (if m ≥ 31 then m - 31 else 31 - m)) 63)) 0
    Int.fdiv (fxOne + 2 * s) 63
  let k := (List.range 63).map (fun m => fxRound (h m) 26)
  let e : Int := pow2 26 - k.foldl (· + ·) 0
  k.zipIdx.map (fun p => ofDy ⟨if p.2 = 31 then p.1 + e else p.1, -26⟩)

/-- The FIR of a chain. -/
def firOf (fs96 : Bool) (c : Dec) : List F36 :=
  c.fir.getD (droopFir c.cicOrder (cicDecOf fs96 c) (decRatio fs96 c.bsRate))

/-! ## The stages (R205, R206, R210) -/

/-- One bit through the integrators: each adds the one before it, exactly. -/
def integStep : Int → List Int → List Int
  | _, [] => []
  | x, s :: r => (s + x) :: integStep (s + x) r

/-- A decimated value through the combs: value and states. -/
def combStep : Int → List Int → Int × List Int
  | x, [] => (x, [])
  | x, c :: r => let q := combStep (x - c) r; (q.1, x :: q.2)

/-- The CIC of a list of bits: outputs and states. -/
def cicRun (dec : Nat) : List Bool → Dec → List Int × Dec
  | [], c => ([], c)
  | b :: r, c =>
    let c := { c with integ := integStep (if b then 1 else -1) c.integ, phase := c.phase + 1 }
    if c.phase < dec then cicRun dec r c
    else
      let y := combStep (c.integ.getLast?.getD 0) c.comb
      let q := cicRun dec r { c with comb := y.2, phase := 0 }
      (y.1 :: q.1, q.2)

/-- A sum of products over a history, newest sample first, in increasing tap index. -/
def firSum (taps : List F36) (hist : List F36) : F36 :=
  (taps.zip hist).foldl (fun a p => fadd a (fmul p.1 p.2)) 0

/-- A half-band stage: one output at every second input. History newest first. -/
def hbRun (taps : List F36) : List F36 → List F36 → Nat → List F36 × List F36 × Nat
  | [], h, ph => ([], h, ph)
  | x :: r, h, ph =>
    let h := (x :: h).take 23
    let q := hbRun taps r h ((ph + 1) % 2)
    if ph % 2 = 0 then q else (firSum taps h :: q.1, q.2)

/-- The half-band stages in series, with their histories and phases. -/
def hbChain (taps : List F36) : Nat → List F36 → List (List F36) → List Nat →
    List F36 × List (List F36) × List Nat
  | 0, x, _, _ => (x, [], [])
  | n + 1, x, h, ph =>
    let y := hbRun taps x (h.headD (List.replicate 22 0)) (ph.headD 0)
    let q := hbChain taps n y.1 h.tail ph.tail
    (q.1, y.2.1 :: q.2.1, y.2.2 :: q.2.2)

/-- The compensation FIR of a frame. -/
def firRun (taps : List F36) : List F36 → List F36 → List F36 × List F36
  | [], h => ([], h)
  | x :: r, h =>
    let h := (x :: h).take 63
    let q := firRun taps r h
    (firSum taps h :: q.1, q.2)

/-- The trim stage (R210); an OTP whose factory CRC fails trims with offset 0 and gain 1.0 (R475).
(log 20: DESIGN CHOICE, safe.) -/
def trimOf (otpFail : Bool) (n : Nat) (c : Dec) (x : F36) : F36 :=
  let ofs := if otpFail then 0 else Config.factoryOfs n
  let gain := if otpFail then fOne else Config.factoryGain n
  fmul (fsub (fmul (fsub x ofs) gain) c.ofsU) c.gainU

/-- All filter states zero. -/
def decClear (c : Dec) : Dec :=
  { c with integ := List.replicate c.cicOrder 0, comb := List.replicate c.cicOrder 0, phase := 0, hbHist := [],
           hbPhase := [], firHist := [], hpSt := {}, eqBits := 0, stuckRun := none, stuck := false }

/-- Equal bits in a row (R207): a run that reaches 4,096 is noted, also where it ends within the frame. -/
def eqRun (c : Dec) (bits : List Bool) : Dec :=
  bits.foldl (fun c b =>
    if b = c.level && c.eqBits ≠ 0 then
      { c with eqBits := c.eqBits + 1, stuckRun := if c.eqBits = 4095 then some b else c.stuckRun }
    else { c with eqBits := 1, level := b, stuck := false }) c

/-- The frame of chain `n` for the bits of a tick: stages 1 to 5. -/
def decFrame (otpFail fs96 reserved : Bool) (fs n : Nat) (bits : List Bool) (c : Dec) : Dec :=
  let dec := cicDecOf fs96 c
  let ord := c.cicOrder
  let c := if c.integ.length = ord then c else decClear c
  let (y, c) := cicRun dec bits (eqRun c bits)
  let div := dec ^ ord
  let x := y.map (fun v => ofDy ⟨v, -(Nat.log2 div : Int)⟩)
  let (x, h, ph) := hbChain hbTaps (hbOf fs96 c) x c.hbHist c.hbPhase
  let (x, fh) := firRun (firOf fs96 c) x (if c.firHist.isEmpty then List.replicate 62 0 else c.firHist)
  let x := x.map (trimOf otpFail n c)
  let (x, hp) := if hpfOf reserved c then biqFrame (butterHp 20 fs) c.hpSt x else (x, c.hpSt)
  { c with hbHist := h, hbPhase := ph, firHist := fh, hpSt := hp, frame := x }

/-! ## Detectors (R208) -/

/-- The measures of a frame: per sample, or one for the frame under mode 3. -/
def tdMeasure (mode : Nat) (x : List F36) : List F36 :=
  match mode with
  | 1 => x.map fcanon
  | 2 => x.map fabs
  | 3 => if x.isEmpty then [] else [fdiv (x.foldl (fun a v => fadd a (fmul v v)) 0) (fint x.length)]
  | _ => []

def tdThr (lo : Bool) (t : Detector) : F36 := t.thr.getD (if lo then fneg fOne else fOne)

/-- A measure of the frame asserts the detector. -/
def tdHits (lo : Bool) (t : Detector) (x : List F36) : Bool :=
  (tdMeasure t.mode x).any (fun v => if lo then fle v (tdThr lo t) else fle (tdThr lo t) v)

/-- Every measure of the frame lies on the clearing side of the hysteresis. -/
def tdClear (lo : Bool) (t : Detector) (x : List F36) : Bool :=
  (tdMeasure t.mode x).all (fun v =>
    if lo then flt (fadd (tdThr lo t) t.hys) v else flt v (fsub (tdThr lo t) t.hys))

/-- The count of frames on the clearing side. -/
def tdCount (lo : Bool) (x : List F36) (t : Detector) : Detector :=
  if t.asserted then { t with below := if tdClear lo t x then t.below + 1 else 0 } else { t with below := 0 }

/-- The detector of a chain, and the chain with it. -/
def detOf (lo : Bool) (c : Dec) : Detector := if lo then c.lo else c.hi
def withDet (lo : Bool) (t : Detector) (c : Dec) : Dec := if lo then { c with lo := t } else { c with hi := t }

/-- The event of an assertion or a release (R208, R297): TD, or TD_ACT in its place where the detector acts. -/
def tdEvent (c : Nat) (lo release : Bool) (t : Detector) (e : Env) (d : Device) : Device :=
  if t.act = 0 then raise 0x100C (0x20 + c) (leBytes 1 lo.toNat ++ leBytes 1 release.toNat) e d
  else raise 0x4005 (0x20 + c) (leBytes 1 lo.toNat ++ leBytes 1 t.act ++ leBytes 2 t.mask.toNat) e d

/-- TD_ASSERT: the frame just sealed asserts the detector; its action follows. -/
def tdAssert (c : Nat) (lo : Bool) (e : Env) (d : Device) : Device :=
  let x := decAt d c
  let t := detOf lo x
  if x.running && !t.asserted && tdHits lo t x.frame then
    let d := setDec c (withDet lo { t with asserted := true, below := 0 } x) d
    let d := tdEvent c lo false t e d
    when (t.act = 2 && d.pwr.spoke)
      (forAll ((List.range 16).filter (fun n => t.mask.getLsbD n && pchConfigured d n)) (toSafe 3 e)) d
  else d

/-- TD_RELEASE: TD_HOLD frames on the clearing side. -/
def tdRelease (c : Nat) (lo : Bool) (e : Env) (d : Device) : Device :=
  let x := decAt d c
  let t := detOf lo x
  if t.asserted && decide (t.below ≥ t.hold) && !tdHits lo t x.frame then
    tdEvent c lo true t e (setDec c (withDet lo { t with asserted := false, below := 0 } x) d)
  else d

/-! ## The tick of the chains -/

/-- The bits that an input delivers in a frame: 1010… where its ball is not used or it supplies fewer. -/
def bsBits (d : Device) (n : Nat) (bits : List (Nat × List Bool)) (c : Dec) : List Bool :=
  let k := 1024 * (if c.bsRate = 1 then 2 else 1)
  let used := if n < 32 then (regAt d 0x2004 0xFFFFFFFF#32).getLsbD n else (regAt d 0x2008 0x000000FF#32).getLsbD (n - 32)
  let l := if used then ((bits.find? (fun p => p.1 = n)).map (·.2)).getD [] else []
  (List.range k).map (fun i => l.getD i (i % 2 = 0))

/-- One chain at a tick: start and stop (R133), the frame of the tick just ended, reset and fill (R209). -/
def decTickOne (bits : List (Nat × List Bool)) (n : Nat) (d : Device) : Device :=
  let c := decAt d n
  let ns := nSmp d
  let want := c.started || (chainReserved d n && d.pwr.rendering)
  let c := if want && !c.running then { decClear c with running := true, fade := 1 }
    else if !want && c.running then { c with fade := 2 } else c
  let c :=
    if c.running then decFrame d.jrn.otpFail (cfg d).fs96 (chainReserved d n) (fsHz d) n (bsBits d n bits c) c
    else { c with frame := [] }
  let c := match c.reset with
    | 1 => { decClear { c with out := faded ns 2 c.frame } with reset := 2, fill := fillFrames (cfg d).fs96 c }
    | 2 => { c with frame := silence ns, out := silence ns, fill := c.fill - 1, reset := if c.fill ≤ 1 then 3 else 2 }
    | 3 => { c with frame := silence ns, out := silence ns }
    | _ => { c with out := if c.running then faded ns c.fade c.frame else [] }
  let c := { c with running := c.running && want, fade := 0 }
  let x := if c.frame.isEmpty then silence ns else c.frame
  setDec n { c with hi := tdCount false x c.hi, lo := tdCount true x c.lo } d

/-- Every chain at a tick. -/
def decTick (bits : List (Nat × List Bool)) (d : Device) : Device :=
  forAll (List.range 40) (decTickOne bits) d

/-- Function reset of a chain at its AF (R209): asserted detectors release at once. A stopped chain returns at once. -/
def decReset (n : Nat) (uid : BitVec 32) (e : Env) (d : Device) : Device :=
  let rel : Bool → Device → Device := fun lo d =>
    let t := detOf lo (decAt d n)
    if t.asserted then
      tdEvent n lo true t e (modDec n (withDet lo { t with asserted := false, below := 0 }) d)
    else d
  let d := rel true (rel false d)
  if (decAt d n).running then modDec n (fun c => { c with reset := 1, resetUid := some uid }) d
  else finishUid uid 0 [] e (modDec n decClear d)

/-! ## Events of the environment -/

/-- BS_STUCK (R207): 4,096 equal bits in a row since the last report; a sense chain puts its channels in SAFE. -/
def bsStuck (c : Nat) (e : Env) (d : Device) : Device :=
  let x := decAt d c
  match x.stuckRun with
  | none => d
  | some level =>
    if !x.running then d
    else
      let d := setDec c { x with stuckRun := none, stuck := decide (x.eqBits ≥ 4096) } d
      let d := raise 0x2014 (0x20 + c) (leBytes 1 level.toNat) e d
      forAll (chainServes d c) (toSafe 4 e) d

def execBsStuck (chain : Nat) (s : State) : Host.Outcome State Fault Refusal :=
  act (fun e d => when (chain < 40) (bsStuck chain e) d) s

/-- Log 6: DESIGN CHOICE, safe. -/
def execTdAssert (chain : Nat) (lo : Bool) (s : State) : Host.Outcome State Fault Refusal :=
  act (fun e d => when (chain < 40) (tdAssert chain lo e) d) s

def execTdRelease (chain : Nat) (lo : Bool) (s : State) : Host.Outcome State Fault Refusal :=
  act (fun e d => when (chain < 40) (tdRelease chain lo e) d) s

/-- DEC_FILL_DONE (R209): the next frame fades in and the reset completes. -/
def decFillDone (c : Nat) (e : Env) (d : Device) : Device :=
  let x := decAt d c
  if x.reset = 3 then
    let d := setDec c { x with reset := 0, fill := 0, fade := 1, resetUid := none } d
    match x.resetUid with | some u => finishUid u 0 [] e d | none => d
  else d

def execDecFillDone (chain : Nat) (s : State) : Host.Outcome State Fault Refusal :=
  act (fun e d => when (chain < 40) (decFillDone chain e) d) s

end Sys2Proof.Machine
end

