-- ==== Sys2Proof/Machine/Protect.lean ====
section
/-! DEFINITION. Loudspeaker protection (R211 to R216): sense frames, the thermal model, the resistance estimate, the
excursion ceiling and the ceilings of the limiter. -/
namespace Sys2Proof.Machine

/-- A second-order Butterworth low-pass at `f` Hz (R213). -/
def butterLp (f fs : Nat) : Biq :=
  let k := fxTan (fxMul fxPi (fxRat f fs))
  let r2k := fxMul (fxSqrt (2 * fxOne)) k
  let k2 := fxMul k k
  let den := fxOne + r2k + k2
  { b0 := fxF36 (fxDiv k2 den), b1 := fxF36 (2 * fxDiv k2 den), b2 := fxF36 (fxDiv k2 den),
    a1 := fxF36 (-(fxDiv (2 * (fxOne - k2)) den)), a2 := fxF36 (fxDiv (fxOne - r2k + k2) den) }

/-- Re_hot = RE0 × (1 + ALPHA × (T_c − T0)) (R212). -/
def reHot (c : PchCfg) (tc : F36) : F36 := fmul c.re0 (fadd fOne (fmul c.alpha (fsub tc c.t0)))

/-- Sum of squares of a frame, in sample order. (log 49: DEDUCED, unsafe.) -/
def sumSquares (x : List F36) (a : F36) : F36 := x.foldl (fun a v => fadd a (fmul v v)) a

/-- The sense frame of channel `n` for the frame just ended (R210), in volts and amperes.
(log 49: DEDUCED, unsafe.) -/
def senseFrame (n : Nat) (d : Device) : Device :=
  let ns := nSmp d
  let get : Nat → List F36 := fun c => let x := (decAt d c).frame; if x.isEmpty then silence ns else x
  modPch n (fun p =>
    let c := pcfg p 1
    let v := (get n).map (fun y => fmul y c.vScale)
    let i := (get (16 + n)).map (fun y => fmul y c.iScale)
    { p with v := v, i := i, sumV := sumSquares v p.sumV, sumI := sumSquares i p.sumI,
             pkV := v.foldl (fun a x => fmax a (fabs x)) p.pkV, pkI := i.foldl (fun a x => fmax a (fabs x)) p.pkI,
             nSum := p.nSum + ns }) d

/-- The rail sense frame of group `g`, in volts. -/
def railFrame (g : Nat) (d : Device) : Device :=
  let x := (decAt d (32 + g)).frame
  let sc := nth (fint 250) (cfg d).railScale g
  modRail g (fun r => { r with last := r.v.getLast?.getD 0, v := (if x.isEmpty then silence (nSmp d) else x).map (fun y => fmul y sc) }) d

/-- COIL_HOT at most once per channel in any 600 frames (R212). -/
def coilHot (n : Nat) (tc : F36) (e : Env) (d : Device) : Device :=
  let k := 0x2012 * 65536 + n
  if mget 0 d.evt.wait k ≠ 0 then d
  else
    let d := raise 0x2012 (0x50 + n) (leBytes 2 (uext 16 (dyFloor (toDy tc)))) e d
    { d with evt := { d.evt with wait := mset 0 d.evt.wait k 600 } }

/-- T_c reaches T_MAX, by whatever change of either (R212). -/
def hotCheck (n : Nat) (e : Env) (d : Device) : Device :=
  let p := pchAt d n
  let now := fle (pcfg p 1).tMax p.tc
  let d := modPch n (fun p => { p with hot := now }) d
  when (now && !p.hot) (coilHot n p.tc e) d

/-- The thermal model of a channel (R212). -/
def thermalTick (n : Nat) (e : Env) (d : Device) : Device :=
  let p := pchAt d n
  let c := pcfg p 1
  let dt := f36Rat 1 6000
  let pw := fmul (reHot c p.tc) (fdiv (sumSquares p.i 0) (fint p.i.length))
  let q := fdiv (fsub p.tc p.tm) c.rthC
  let tc := fadd p.tc (fmul (fsub pw q) (fdiv dt c.cthC))
  let tm := fadd p.tm (fmul (fsub q (fdiv (fsub p.tm d.psc.tAmb) c.rthM)) (fdiv dt c.cthM))
  hotCheck n e (setPch n { p with tc := tc, tm := tm } d)

/-- The frame that ended was a PLAY frame of the channel: its signal was emitted, and it still plays. -/
def playedFrame (p : Pch) : Bool :=
  p.st = .play && (match p.emit with | .none => false | .play _ _ => true | .fed drive _ _ _ => drive)

/-- The estimation window of a channel in PLAY (R213): filtered products until RE_WIN frames are summed. -/
def reTick (n : Nat) (d : Device) : Device :=
  let p := pchAt d n
  let c := pcfg p 1
  if !playedFrame p || decide (p.winFrames ≥ c.reWin) then d
  else
    let lp := butterLp 40 (fsHz d)
    let v := biqFrame lp p.lpV p.v
    let i := biqFrame lp p.lpI p.i
    setPch n { p with
      lpV := v.2, lpI := i.2, winFrames := p.winFrames + 1,
      svi := (v.1.zip i.1).foldl (fun a q => fadd a (fmul q.1 q.2)) p.svi, sii := sumSquares i.1 p.sii } d

/-- RE_WINDOW_END (R213): the window is judged and restarts. -/
def reWindowEnd (n : Nat) (e : Env) (d : Device) : Device :=
  let p := pchAt d n
  let c := pcfg p 1
  if p.st ≠ .play || decide (p.winFrames < c.reWin) then d
  else
    let p1 := { p with svi := 0, sii := 0, winFrames := 0 }
    if flt (fdiv p.sii (fint (c.reWin * nSmp d))) (fmul c.reImin c.reImin) then setPch n p1 d
    else
      let re := fdiv p.svi p.sii
      if flt re (fmul fHalf c.re0) || flt (fmul (fint 3) c.re0) re then
        let d := setPch n p1 d
        raise 0x200A (0x50 + n) (leBytes 4 (uext 32 (dyRound (toDy (fmul re (fint 100)))))) e d
      else
        let tm := fadd c.t0 (fdiv (fsub (fdiv re c.re0) fOne) c.alpha)
        hotCheck n e (setPch n { p1 with reMeas := re, tc := fadd p.tc (fmul c.reK (fsub tm p.tc)) } d)

def execReWindowEnd (pch : Nat) (s : State) : Host.Outcome State Fault Refusal :=
  act (fun e d => when (pchConfigured d pch) (reWindowEnd pch e) d) s

/-- Default X_REL: the F36 value nearest to 10^(1/fs). -/
def xRelDefault (fs : Nat) : F36 := fxF36 (fxPow10 1 fs)

/-- The excursion ceiling after output frame k (R214). -/
def cxNext (n fs : Nat) (c : PchCfg) (ePk cx : F36) : F36 :=
  if flt fOne ePk then fmax (fdiv cx ePk) (fscale fOne (-20))
  else fmin (iter (fun x => fmul x (c.xRel.getD (xRelDefault fs))) n cx) fOne

/-- PROT_PK (R215). -/
def protPkOf (c : PchCfg) (vmax imax cx tc : F36) : F36 :=
  fmin (fmin (fmin (fdiv vmax c.voutFs) cx) (fdiv (fmul imax (reHot c tc)) c.voutFs)) fOne

/-- PROT_MS (R215). -/
def protMsOf (c : PchCfg) (tc tm : F36) : F36 :=
  if flt tc (fsub c.tMax c.tMargin) then fOne
  else
    let w := fmul (fdiv (fmax (fsub c.tMax tm) 0) c.rthC) (reHot c tc)
    fmin (fmax (fdiv w (fmul c.voutFs c.voutFs)) (fscale fOne (-40))) fOne

/-- Ceilings of a channel for the limiter of the input frame just ended, delivered to its output and its path. -/
def protTick (n : Nat) (d : Device) : Device :=
  let p := pchAt d n
  let c := pcfg p 1
  let cx := cxNext (nSmp d) (fsHz d) (pcfg p 3) p.ePk p.cx
  let pk := protPkOf c (vMax d n) (iMax d n) cx p.tc
  let ms := protMsOf c p.tc p.tm
  let d := setPch n { p with cx := cx, ePk := 0, protPk := pk, protMs := ms } d
  let o := nth 0xFFFF (cfg d).pchOut n
  when (o ≠ 0xFFFF) (modOut o (fun x => { x with protPk := pk, protMs := ms })) d

/-- What the frame that ended gives a diagnosis (R196): sums over the held frames of TONE, voltage hits of SG and SS, and one
frame more of its phase; a phase that is over takes nothing more. -/
def diagSense (d : Device) (g : Diag) : Diag :=
  if diagOver d g then g else
  let chans := (diagChans g).filter (fun n => (mget none g.res n).isNone)
  let sum := fun (m : SMap F36) (x : Pch → List F36) =>
    chans.foldl (fun m n => mset 0 m n (sumSquares (x (pchAt d n)) (mget 0 m n))) m
  let held := g.phase = 4 && between 6 65 g.frames
  let hit : Nat → Bool := fun n =>
    (pchAt d n).v.any (fun v => flt (fmul fHalf (nth 0 g.rails (railGroup d n))) (fabs v))
  { g with
    frames := g.frames + 1
    sumV := if held then sum g.sumV (·.v) else g.sumV, sumI := if held then sum g.sumI (·.i) else g.sumI
    vHit := if between 1 2 g.phase then (g.vHit ++ chans.filter hit).eraseDups else g.vHit }

/-- The sense samples of the frame that ended, before anything of the tick changes a state: rails, diagnoses, the thermal model
and the estimation window (R196, R204, R210, R212, R213). -/
def senseTick (e : Env) (d : Device) : Device :=
  if !d.pwr.spoke then d else
  let chans := pchsConfigured d
  let d := forAll chans senseFrame d
  let diags := d.psc.diags.map (diagSense d)
  let d := forAll (List.range 4) (fun g d => railSense g (railFrame g d)) d
  let d := { d with psc := { d.psc with diags := diags } }
  forAll chans (fun n d => reTick n (thermalTick n e d)) d

/-- The ceilings that a tick delivers (R214, R215). -/
def protectTick (d : Device) : Device :=
  if d.pwr.spoke && d.pwr.rendering then forAll (pchsConfigured d) protTick d else d

/-- The state of the protection at the start of rendering (R212, R214). -/
def protStart (d : Device) : Device :=
  forAll (List.range 16) (fun n d => modPch n (fun p => { p with
    tc := d.psc.tAmb, tm := d.psc.tAmb, hot := false, cx := fOne, ePk := 0, excSt := {}, protPk := fOne, protMs := fOne,
    cfgs := [pcfg p 0, pcfg p 0, pcfg p 0, pcfg p 0] }) d) d

end Sys2Proof.Machine
end

