-- ==== Sys2Proof/Machine/Journal.lean ====
section
/-! DEFINITION. The limit journal (R218 to R221): records, their CRC, the checks of a commit and its end. -/
namespace Sys2Proof.Machine

/-! ## CRC-32 (IEEE 802.3: reflected, initial and final value all ones) -/

/-- One bit of the register. -/
def crc32Bit (c : BitVec 32) : BitVec 32 :=
  if c.getLsbD 0 then (c >>> 1) ^^^ 0xEDB88320#32 else c >>> 1

def crc32Byte (c : BitVec 32) (b : Byte) : BitVec 32 := iter crc32Bit 8 (c ^^^ b.setWidth 32)

def crc32 (l : List Byte) : BitVec 32 := ~~~(l.foldl crc32Byte 0xFFFFFFFF#32)

/-! ## Records (R219) -/

/-- The bytes 0x00 to 0x7B of a record. -/
def limitBody (r : LimitRec) : List Byte :=
  leBytes 1 r.count ++ leBytes 1 r.role ++ zeros 2 ++ leBytes 4 r.fn.toNat ++ leBytes 4 r.tag.toNat ++ zeros 4
  ++ (List.range 16).flatMap (fun n => leBytes 2 (nth 0 r.vmax n) ++ leBytes 2 (nth 0 r.imax n))
  ++ (List.range 4).flatMap (fun g => leBytes 2 (nth 0 r.rail g)) ++ zeros 36

/-- The 128 bytes of a record. -/
def limitBytes (r : LimitRec) : List Byte :=
  limitBody r ++ leBytes 4 (if r.valid then (crc32 (limitBody r)).toNat else (~~~(crc32 (limitBody r))).toNat)

/-- The record that a host block asks for. -/
def limitParse (b : List Byte) : LimitRec :=
  { role := fld b 1 1, tag := BitVec.ofNat 32 (fld b 8 4),
    vmax := (List.range 16).map (fun n => fld b (0x10 + 4 * n) 2),
    imax := (List.range 16).map (fun n => fld b (0x12 + 4 * n) 2),
    rail := (List.range 4).map (fun g => fld b (0x50 + 2 * g) 2) }

/-- Every field of a block is in its range. -/
def limitInRange (r : LimitRec) : Bool :=
  r.vmax.all (fun v => decide (10 ≤ v) && decide (v ≤ 2500)) && r.imax.all (fun v => decide (10 ≤ v) && decide (v ≤ 20000))
    && r.rail.all (fun v => decide (100 ≤ v) && decide (v ≤ 2500)) && decide (r.role ≤ 2)

/-- The committed role: 0 none, 1 hub, 2 spoke (R1, R218). -/
def committedRole (d : Device) : Nat :=
  (limitsNow d).role

/-- The number of the running role. -/
def roleNum (d : Device) : Nat := if d.pwr.spoke then 2 else 1

/-- Slots used, with those that commits in progress will use. -/
def slotsTaken (d : Device) : Nat := d.jrn.slots.length + d.jrn.committing.length

/-- The refusals of LIMIT_COMMIT that do not wait for the AF (R220): 0 where there is none. -/
def limitCheck (d : Device) (r : LimitRec) : Nat :=
  if !d.jrn.unlocked then 0x11C
  else if !limitInRange r then 0x11D
  else if r.role ≠ 0 && r.role ≠ roleNum d then 0x11E
  else if r.role ≠ 0 && committedRole d ≠ 0 && r.role ≠ committedRole d then 0x11F
  else if slotsTaken d ≥ 16 then 0x120
  else 0

/-- LIMIT_COMMIT at its AF (R220, R221): a driven channel refuses it; else the next free slot is programmed, after those of the
commits before it. (log 127: DEDUCED, safe.) -/
def limitStart (uid : BitVec 32) (b : List Byte) (e : Env) (d : Device) : Device :=
  if slotsTaken d ≥ 16 then finishUid uid 0x120 [] e d
  else if (List.range 16).any (pchActive d) then finishUid uid 0x118 [] e d
  else
    let r := limitParse b
    let role := if r.role = 0 then (if committedRole d = 0 then roleNum d else committedRole d) else r.role
    let r := { r with role := role, count := slotsTaken d + 1, fn := e.fn }
    { d with jrn := { d.jrn with committing := d.jrn.committing ++ [(uid, r)] } }

/-- After new limits: RAIL_MAX and RAIL_MIN follow L_g, every DIAG_OK clears (R221). -/
def limitApply (d : Device) : Device :=
  let d := forAll (List.range 16) (fun n d => modPch n (fun p => { p with diagOk := false }) d) d
  forAll (List.range 4) (fun g d =>
    let l := railLimit d g
    modRail g (fun r =>
      let mx := r.max.map (fun x => if flt l x then l else x)
      let top := mx.getD l
      { r with max := mx, min := r.min.map (fun x => if flt top x then top else x) }) d) d

/-- New limits lower a RAIL_MAX or RAIL_MIN in force, written or at its default, which is reported; `old` is the device before
them. -/
def limitLowers (old d : Device) : Bool :=
  (List.range 4).any (fun g =>
    let l := railLimit d g
    flt l (railMax old g) || flt (fmin l (railMax old g)) (railMin old g))

/-- LIMIT_COMMITTED (R221): the slot is programmed and read back. (log 127: DEDUCED, safe.) -/
def limitCommitted (ok : Bool) (e : Env) (d : Device) : Device :=
  match d.jrn.committing with
  | [] => d
  | (uid, r) :: rest =>
    let old := d
    let d := { d with jrn := { d.jrn with slots := d.jrn.slots ++ [{ r with valid := ok }], committing := rest } }
    if ok then
      let low := limitLowers old d
      let d := limitApply d
      let d := when low (modPend uid (fun p => { p with clamped := p.clamped + 1 })) d
      let d := railCaps e d
      let d := raise 0x1009 0x00 (leBytes 1 r.count ++ [0] ++ leBytes 4 r.tag.toNat) e d
      finishUid uid 0 [r.count] e d
    else finishUid uid 0x121 [r.count] e d

def execLimitCommitted (readBackOk : Bool) (s : State) : Host.Outcome State Fault Refusal :=
  act (limitCommitted readBackOk) s

end Sys2Proof.Machine
end

