-- ==== Sys2Proof/Machine/Image.lean ====
section
/-! DEFINITION. The configuration image (R299 to R302, R322, R363, R478 to R486): its sections and their checks, the
image record, the budget check at load, and what applying it leaves. -/
namespace Sys2Proof.Machine

/-! ## CRC-64/XZ (R222, R233) -/

def crc64Bit (c : BitVec 64) : BitVec 64 :=
  if c.getLsbD 0 then (c >>> 1) ^^^ 0xC96C5795D7870F42#64 else c >>> 1

def crc64Byte (c : BitVec 64) (b : Byte) : BitVec 64 := iter crc64Bit 8 (c ^^^ b.setWidth 64)

/-- CRC-64 with the ECMA-182 polynomial, reflected, initial value and final XOR all ones. -/
def crc64 (l : List Byte) : BitVec 64 := ~~~(l.foldl crc64Byte 0xFFFFFFFFFFFFFFFF#64)

/-! ## Sinks (R292, R545) -/

/-- A direct path that is enabled owns the sink of this number (R146). -/
def pathOwns (d : Device) (sink : Nat) : Bool := d.inp.dp.any (fun p => p.2.app.en && p.2.app.sink = sink)

/-- Why SINK_SET is refused, 0 for none. `count` is the number of channels of the ring or stream named. -/
def sinkErr (d : Device) (nOut count : Nat) (sinks : List SinkAsg) (add : Bool) (a : SinkAsg) : Nat :=
  if a.kind < 1 || a.kind > 3 || (a.kind = 1 && a.chan ≠ 0) then 0x0102
  else if a.out ≥ nOut || (a.kind = 1 && a.sink > 15) || (a.kind = 2 && (a.sink < 32 || a.sink > 47))
      || (a.kind = 3 && a.sink > 127) || (a.kind ≠ 1 && a.chan ≥ count) then 0x0103
  else
    let holder := sinks.find? (fun s => s.kind = a.kind && s.sink = a.sink && s.chan = a.chan)
    if !add then (if holder.any (fun h => h.out = a.out) then 0 else 0x010D)
    else if holder.any (fun h => h.out ≠ a.out) then 0x010D
    else if a.kind = 1 && pathOwns d (0x1000 + a.sink) then 0x0113
    else 0

/-- The sink assignment after SINK_SET. -/
def sinkApply (add : Bool) (a : SinkAsg) (l : List SinkAsg) : List SinkAsg :=
  if add then (if l.contains a then l else l ++ [a]) else l.filter (· ≠ a)

/-! ## Sections (R480) -/

/-- A directory entry. -/
structure Sect where
  typ : Nat
  off : Nat
  len : Nat
deriving DecidableEq, Repr

/-- A refusal: code, section type, byte offset. -/
structure ImgErr where
  code : Nat
  sect : Nat := 0
  off : Nat := 0
deriving DecidableEq, Repr

/-- A check of one field: it holds, or the refusal. -/
abbrev FieldCheck := Bool × ImgErr

/-- The first check that fails. -/
def firstBad : List FieldCheck → Option ImgErr
  | [] => none
  | (ok, x) :: r => if ok then firstBad r else some x

/-- A field of section `t` breaks its range line. -/
def secErr (t off : Nat) : ImgErr := { code := 0x0124, sect := t, off := off }

/-- The section directory. -/
def sections (b : List Byte) : List Sect :=
  (List.range (fld b 7 1)).map (fun i =>
    { typ := fld b (0x40 + 16 * i) 2, off := fld b (0x44 + 16 * i) 4, len := fld b (0x48 + 16 * i) 4 })

/-- A section's bytes, empty where absent. -/
def secBytes (b : List Byte) (t : Nat) : List Byte :=
  match (sections b).find? (fun s => s.typ = t) with
  | some s => sub b s.off s.len
  | none => []

def hasSec (b : List Byte) (t : Nat) : Bool := (sections b).any (fun s => s.typ = t)

/-- Two byte ranges meet. -/
def meets (a n b m : Nat) : Bool := decide (a < b + m) && decide (b < a + n) && n ≠ 0 && m ≠ 0

/-- Header checks (R479). -/
def headerChecks (b : List Byte) (len : Nat) (spoke : Bool) : List FieldCheck :=
  [(fld b 0 4 = 0x4D49584F, { code := 0x0128, off := 0 }),
   (fld b 4 2 = 1, { code := 0x0128, off := 4 }),
   (fld b 6 1 = (if spoke then 2 else 1), { code := 0x011E, off := 6 }),
   (decide (1 ≤ fld b 7 1) && decide (fld b 7 1 ≤ 16), { code := 0x0128, off := 7 }),
   (fld b 8 4 = len, { code := 0x0128, off := 8 }),
   (fld b 0xC 4 = 0, { code := 0x0128, off := 0xC }),
   (allZero (sub b 0x18 36), { code := 0x0128, off := 0x18 }),
   ((crc32 (patch b 0x3C (zeros 4))).toNat = fld b 0x3C 4, { code := 0x0123, off := 0x3C })]

/-- Expected length of a section, or its unit where it holds records. -/
def secLenOk (t len nObj nOut : Nat) : Bool :=
  match t with
  | 1 => len = 0x40 | 2 => len = 16 | 3 => len = nObj | 4 => len = 8 * nOut | 5 => len = 0x28 | 6 => len = 13
  | 7 => len = 64 | 8 => len = 0x88 | 9 => len % 8 = 0 | 10 => len % 32 = 0
  | 11 => len % 8 = 0 && decide (len ≤ 262144) | 12 => len % 16 = 0 | _ => false

/-- Directory checks (R480). (log 86: DEDUCED, unsafe.) -/
def directoryChecks (b : List Byte) (len : Nat) (spoke : Bool) : List FieldCheck :=
  let ss := sections b
  let top := 0x40 + 16 * ss.length
  let each := ss.zipIdx.flatMap (fun p =>
    let s := p.1
    let at_ := 0x40 + 16 * p.2
    [(decide (1 ≤ s.typ) && decide (s.typ ≤ 12), secErr s.typ at_),
     (!((ss.take p.2).any (fun q => q.typ = s.typ)), secErr s.typ at_),
     (fld b (at_ + 2) 2 = 0, secErr s.typ (at_ + 2)),
     (fld b (at_ + 12) 4 = 0, secErr s.typ (at_ + 12)),
     (s.off % 64 = 0, secErr s.typ (at_ + 4)),
     (!meets s.off s.len 0 top, secErr s.typ (at_ + 4)),
     (decide (s.off + s.len ≤ len), secErr s.typ (at_ + 8)),
     (!((ss.take p.2).any (fun q => meets s.off s.len q.off q.len)), secErr s.typ (at_ + 4))])
  let need := [1, 3, 4, 5, 6, 7] ++ (if spoke then [2, 8] else [])
  each ++ need.map (fun t => (ss.any (fun s => s.typ = t), secErr t 0))
    ++ [(spoke || !ss.any (fun s => s.typ = 8), secErr 8 0)]

/-! ## The image record -/

/-- A custom-task record (R300). -/
def taskRec (r : List Byte) : CustomTask :=
  { flow := fld r 0 2, seq := fld r 2 1, background := fld r 3 1 = 1, entry := fld r 4 4, cost := fld r 8 4
    stateLen := fld r 12 2, ops := (List.range 8).map (fun j => fld r (16 + 2 * j) 2) }

/-- The fields of an image (R481 to R483), read without a check. -/
def parseImage (b : List Byte) (spoke : Bool) : Image :=
  let g := secBytes b 1
  let p := secBytes b 2
  let dr := secBytes b 5
  let x := secBytes b 6
  let n := secBytes b 7
  let ps := secBytes b 8
  let o := secBytes b 4
  let t := secBytes b 10
  let c := secBytes b 11
  let a := secBytes b 12
  let nOut := fld g 4 2
  let port : Nat → NetPort := fun q =>
    { mac := BitVec.ofNat 48 (fld n (16 * q) 6), phy := fld n (16 * q + 6) 1, fec := fld n (16 * q + 7) 1
      ipv4 := BitVec.ofNat 32 (fld n (16 * q + 8) 4)
      maxFrame := if q = 2 then 9022 else if q = 3 then 1522 else fld n (16 * q + 12) 2 }
  -- R222: the digest takes PAIR_ID, PEER_STREAM, the port addresses and the CRC field as zero
  let zero := fun (l : List Byte) (typ off len : Nat) =>
    match (sections b).find? (fun s => s.typ = typ) with
    | some s => patch l (s.off + off) (zeros len)
    | none => l
  let z := zero (zero (patch b 0x3C (zeros 4)) 2 0 1) 2 8 8
  let z := (List.range 4).foldl (fun l q => zero (zero l 7 (16 * q) 6) 7 (16 * q + 8) 4) z
  { imgId := BitVec.ofNat 64 (fld b 0x10 8), fs96 := fld g 0 1 = 1, spares := fld g 1 1, nObj := fld g 2 2
    nOut := nOut, swapMax := fld g 6 2, scarfXp := fld g 8 2, cveLong := fld g 0xA 1 = 1
    objBulkEn := bit (fld g 0xB 1) 0, outBulkEn := bit (fld g 0xB 1) 1, clockRef := fld g 0xC 1, wclkCfg := fld g 0xD 1
    bridgeMask := BitVec.ofNat 8 (fld g 0xE 1), objBulkBase := fld g 0x10 8, outBulkBase := fld g 0x18 8
    cveBase := fld g 0x20 8, coefBw := fld g 0x28 4
    pairId := fld p 0 1, pairTag := BitVec.ofNat 32 (fld p 4 4), peerStream := BitVec.ofNat 64 (fld p 8 8)
    objLaws := secBytes b 3
    outs := (List.range nOut).map (fun i =>
      { biqMax := fld o (8 * i) 1, xoMax := fld o (8 * i + 1) 1, convMax := fld o (8 * i + 4) 4 })
    dcfg := [fld dr 0 1, fld dr 1 1], mapConcat := fld dr 2 1 = 1, tempSrc := fld dr 3 1, rtQos := fld dr 4 1
    scrubEn := fld dr 5 1 = 1, phy := (List.range 5).map (fun j => fld dr (6 + j) 1), idleNs := fld dr 0xC 2
    haChMax := fld dr 0xE 2, haBase := fld dr 0x10 8, directBase := fld dr 0x18 8, codeBase := fld dr 0x20 8
    qosFrame := fld x 0 1, qosBack := fld x 1 1, qos := (List.range 10).map (fun j => fld x (2 + j) 1)
    attach := fld x 0xC 1, net := (List.range 4).map port
    pchOut := if spoke then (List.range 16).map (fun j => fld ps (4 * j) 2) else []
    railGrp := if spoke then (List.range 16).map (fun j => fld ps (4 * j + 2) 1) else []
    pwmIntlv := fld ps 0x40 1 = 1
    railVfs := if spoke then (List.range 4).map (fun j => BitVec.ofNat 36 (fld ps (0x48 + 8 * j) 8)) else []
    railScale := if spoke then (List.range 4).map (fun j => BitVec.ofNat 36 (fld ps (0x68 + 8 * j) 8)) else []
    tasks := (List.range (t.length / 32)).map (fun j => taskRec (sub t (32 * j) 32))
    code := (List.range (c.length / 8)).map (fun j => BitVec.ofNat 64 (fld c (8 * j) 8))
    areas := (List.range (a.length / 16)).map (fun j => (fld a (16 * j) 4, fld a (16 * j + 4) 4))
    digest := crc64 z }

/-! ## Field checks -/

/-- GLOBAL (R481, R2, R3, R28, R35, R46, R110, R150, R444). -/
def globalChecks (g : List Byte) (i : Image) (spoke : Bool) : List FieldCheck :=
  let e := secErr 1
  -- the limits of R2 name N_OUT's offset, whichever count exceeds them
  [(between 0 1 (fld g 0 1), e 0), (between 0 8 i.spares, e 1),
   (spoke || (decide (i.nObj ≤ 1024) && decide (i.nObj * i.nOut ≤ 524288)), e 4), (between 64 1024 i.nObj, e 2),
   (between 1 (if spoke then 64 else 512) i.nOut, e 4),
   (between 1 512 i.swapMax, e 6), (between i.nOut 32768 i.scarfXp, e 8), (between 0 1 (fld g 0xA 1), e 0xA),
   (!i.cveLong || decide ((i.outs.filter (fun o => o.convMax > 0)).length ≤ 256), e 0xA),
   (fld g 0xB 1 / 4 = 0, e 0xB), (between 0 3 i.clockRef, e 0xC),
   (i.wclkCfg = 0 || (i.wclkCfg = 1 && i.fs96), e 0xD), (fld g 0xF 1 = 0, e 0xF),
   (i.objBulkBase % 64 = 0, e 0x10), (i.outBulkBase % 64 = 0, e 0x18), (i.cveBase % 64 = 0, e 0x20),
   (between 16384 262144 i.coefBw, e 0x28), (allZero (sub g 0x2C 20), e 0x2C)]

/-- PAIR (R222): required in a spoke and in a paired hub; a hub without it is unpaired. -/
def pairChecks (b p : List Byte) (i : Image) (spoke : Bool) : List FieldCheck :=
  let e := secErr 2
  if !hasSec b 2 then []
  else
    [(decide (i.pairId ≤ (if spoke then 0 else 2)), e 0), (allZero (sub p 1 3), e 1),
     ((!spoke && i.pairId = 0) || i.pairTag ≠ 0, e 4), (i.pairId = 0 || i.peerStream ≠ 0, e 8),
     (i.pairId = 0 || i.spares ≠ 0, { code := 0x0129, sect := 1, off := 1 })]

/-- OBJECT and OUTPUT (R480, R150). -/
def elementChecks (o : List Byte) (i : Image) (spoke : Bool) : List FieldCheck :=
  i.objLaws.zipIdx.map (fun p => (decide (p.1.toNat < 32), secErr 3 p.2))
  ++ i.outs.zipIdx.flatMap (fun p =>
    let c := p.1.convMax
    [(decide (p.1.biqMax ≤ 16), secErr 4 (8 * p.2)), (decide (p.1.xoMax ≤ (if spoke then 4 else 0)), secErr 4 (8 * p.2 + 1)),
     (fld o (8 * p.2 + 2) 2 = 0, secErr 4 (8 * p.2 + 2)),
     (c = 0 || between 64 (if i.cveLong then 131072 else 65536) c, secErr 4 (8 * p.2 + 4))])

/-- The DRAM areas in use: base field (section, offset), first byte, length (R383). (log 87: DEDUCED, unsafe.) -/
def dramAreas (i : Image) : List ((Nat × Nat) × Nat × Nat) :=
  let conv := (i.outs.filter (fun o => o.convMax > 0)).length
  (if i.objBulkEn then [((1, 0x10), i.objBulkBase, i.nObj * 1048640)] else [])
  ++ (if i.outBulkEn then [((1, 0x18), i.outBulkBase, i.nOut * 2097280)] else [])
  ++ (if conv > 0 then [((1, 0x20), i.cveBase, conv * (if i.cveLong then 0x800000 else 0x400000))] else [])
  ++ [((5, 0x10), i.haBase, 4325376)]
  ++ (if (List.range i.nObj).any (mayDirect i) then [((5, 0x18), i.directBase, 16 * i.nOut * i.nObj)] else [])
  ++ [((5, 0x20), i.codeBase, 262144)]

/-- DRAM (R383, R477, R482). RTT_WR has the DDR4 encodings 0 to 4 of MR2, RTT_NOM and RTT_PARK all eight of MR1, MR5
(PRESUMED, log 32). (log 87: DEDUCED, unsafe.) -/
def dramChecks (d : Device) (r : List Byte) (i : Image) : List FieldCheck :=
  let e := secErr 5
  let c0 := nth 0 i.dcfg 0
  let c1 := nth 0 i.dcfg 1
  let areas := dramAreas i
  [(decide (c0 ≤ 4), e 0), (decide (c1 ≤ 4), e 1),
   (c0 = (dchAt d 0).det, { code := 0x0125, sect := 5, off := 0 }),
   (c1 = (dchAt d 1).det, { code := 0x0125, sect := 5, off := 1 }),
   (between 0 1 (fld r 2 1), e 2), (i.mapConcat || dramCap c0 = dramCap c1, e 2), (between 0 1 i.tempSrc, e 3),
   (between 3 9 i.rtQos, e 4), (between 0 1 (fld r 5 1), e 5), (between 0 1 (nth 0 i.phy 0), e 6),
   (between 0 2 (nth 0 i.phy 1), e 7), (between 0 7 (nth 0 i.phy 2), e 8), (between 0 4 (nth 0 i.phy 3), e 9),
   (between 0 7 (nth 0 i.phy 4), e 10), (fld r 11 1 = 0, e 11), (decide (i.idleNs ≤ 2040) && i.idleNs % 8 = 0, e 0xC),
   (decide (i.haChMax ≤ 2048), e 0xE), (i.haBase % 64 = 0, e 0x10),
   (!(List.range i.nObj).any (mayDirect i) || i.directBase % 64 = 0, e 0x18), (i.codeBase % 64 = 0, e 0x20)]
  ++ areas.zipIdx.map (fun p =>
    (decide (p.1.2.1 + p.1.2.2 ≤ dramCap c0 + dramCap c1)
      && !(areas.take p.2).any (fun q => meets p.1.2.1 p.1.2.2 q.2.1 q.2.2), secErr p.1.1.1 p.1.1.2))

/-- XBAR and NET (R369, R374, R482, R403). -/
def netChecks (x n : List Byte) : List FieldCheck :=
  (List.range 12).map (fun j => (decide (fld x j 1 ≤ 15), secErr 6 j))
  -- an engine (masters 8 to 16) below the BACKGROUND class (R374)
  ++ (List.range 9).map (fun j => (decide (fld x 1 1 ≤ fld x (2 + j) 1), secErr 6 (2 + j))) ++ [(decide (fld x 12 1 ≤ 15), secErr 6 12)]
  ++ (List.range 4).flatMap (fun q =>
    let o := 16 * q
    let e := fun k => secErr 7 (o + k)
    let phy := fld n (o + 6) 1
    let mf := fld n (o + 12) 2
    [(if q < 2 then decide (phy ≤ 1) else phy = 0, e 6),
     (if q < 2 then (if phy = 0 then decide (fld n (o + 7) 1 ≤ 2) else fld n (o + 7) 1 = 0) else fld n (o + 7) 1 = 0, e 7),
     (decide (q < 2) || fld n (o + 8) 4 = 0, e 8),
     (if q < 2 then between 1522 9022 mf else mf = 0 || mf = (if q = 2 then 9022 else 1522), e 12),
     (fld n (o + 14) 2 = 0, e 14)])

/-- An 8-byte field holds an F36 value: bits [63:36] are zero (R60). -/
def f36Ok (l : List Byte) (off : Nat) : Bool := decide (fld l off 8 < pow2 36)

/-- The F36 value of an 8-byte field. -/
def f36At (l : List Byte) (off : Nat) : F36 := BitVec.ofNat 36 (fld l off 8)

/-- PSC (R179, R483, R146). -/
def pscChecks (d : Device) (p : List Byte) (i : Image) : List FieldCheck :=
  let e := secErr 8
  i.pchOut.zipIdx.flatMap (fun q =>
    [(q.1 = 0xFFFF || decide (q.1 < i.nOut), e (4 * q.2)),
     (q.1 = 0xFFFF || !(i.pchOut.take q.2).contains q.1, e (4 * q.2)),
     (q.1 = 0xFFFF || !pathOwns d (0x2000 + q.2), { code := 0x0113, sect := 8, off := 4 * q.2 }),
     (decide (nth 0 i.railGrp q.2 ≤ 3), e (4 * q.2 + 2)), (fld p (4 * q.2 + 3) 1 = 0, e (4 * q.2 + 3))])
  ++ [(between 0 1 (fld p 0x40 1), e 0x40), (allZero (sub p 0x41 7), e 0x41)]
  ++ (List.range 4).map (fun g => (f36Ok p (0x48 + 8 * g) && fle (fint 20) (nth 0 i.railVfs g)
        && fle (nth 0 i.railVfs g) (fint 400), e (0x48 + 8 * g)))
  ++ (List.range 4).map (fun g => (f36Ok p (0x68 + 8 * g) && fle (fint 20) (nth 0 i.railScale g)
        && fle (nth 0 i.railScale g) (fint 500), e (0x68 + 8 * g)))

/-- The records of SINKS. -/
def sinkRecs (s : List Byte) : List SinkAsg :=
  (List.range (s.length / 8)).map (fun j =>
    { out := fld s (8 * j) 2, kind := fld s (8 * j + 2) 1, sink := fld s (8 * j + 4) 2, chan := fld s (8 * j + 6) 2 })

/-- SINKS: each record as SINK_SET with OP = add on those before it; a bad field refuses the section (R480, R486).
(log 87: DEDUCED, unsafe.) -/
def sinkChecks (d : Device) (s : List Byte) (i : Image) : List FieldCheck :=
  let l := sinkRecs s
  l.zipIdx.flatMap (fun p =>
    let a := p.1
    let e := fun (k : Nat) => secErr 9 (8 * p.2 + k)
    let count := if a.kind = 1 then 1 else 64
    let sinkOk := match a.kind with | 1 => decide (a.sink ≤ 15) | 2 => between 32 47 a.sink | _ => decide (a.sink ≤ 127)
    [(decide (a.out < i.nOut), e 0), (between 1 3 a.kind, e 2), (fld s (8 * p.2 + 3) 1 = 0, e 3), (sinkOk, e 4),
     (sinkErr d i.nOut 64 (l.take p.2) true a ≠ 0x010D, e 4), (decide (a.chan < count), e 6),
     (sinkErr d i.nOut 64 (l.take p.2) true a ≠ 0x0113, { code := 0x0113, sect := 9, off := 8 * p.2 + 4 })])

/-- An operand selector that exists (R302). -/
def selOk (i : Image) (spoke : Bool) (nTasks sel : Nat) : Bool :=
  let x := sel % 4096
  match sel / 4096 with
  | 0 => x = 0 | 1 => x = 0 | 2 => decide (x < i.nOut) | 3 => decide (x < i.nOut) | 4 => decide (x < nTasks)
  | 5 => decide (x < i.nObj) | 6 => decide (x < i.nObj) | 7 => spoke && decide (x < 16) | _ => false

/-- TASKS (R299, R300, R302, R322). -/
def taskChecks (t : List Byte) (i : Image) (spoke : Bool) : List FieldCheck :=
  let total := (buildTable i spoke (fun _ => false)).length
  i.tasks.zipIdx.flatMap (fun p =>
    let c := p.1
    let o := 32 * p.2
    let prev := if p.2 = 0 then none else i.tasks[p.2 - 1]?
    let next := match prev with | some q => if q.flow = c.flow then c.seq = q.seq + 1 else c.seq = 0 | none => c.seq = 0
    let again := c.seq = 0 && (i.tasks.take p.2).any (fun q => q.flow = c.flow)
    [(decide (c.flow ≤ 1023) && !again, secErr 10 o), (decide (c.seq ≤ 7) && next, secErr 10 (o + 2)),
     (decide (fld t (o + 3) 1 ≤ 1), secErr 10 (o + 3)), (between 0x8000 0xFFFF c.entry, secErr 10 (o + 4)),
     (between 1 170268 c.cost, secErr 10 (o + 8)),
     (decide (c.stateLen ≤ 16384) && (c.seq = 0 || c.stateLen = 0), secErr 10 (o + 12)),
     (fld t (o + 14) 2 = 0, secErr 10 (o + 14)),
     (c.background || c.ops.any (· ≠ 0), secErr 10 (o + 16))]
    ++ c.ops.zipIdx.map (fun q => (selOk i spoke total q.1, secErr 10 (o + 16 + 2 * q.2))))
  ++ [(decide (total ≤ 4096), secErr 10 0)]

/-- CODE (R322): no reserved opcode, field value or bit. -/
def codeChecks (i : Image) : List FieldCheck :=
  i.code.zipIdx.map (fun p => ((decodeCoreWord 0 p.1).isSome, secErr 11 (8 * p.2)))

/-- Words of the built-in shared-store areas (R363, R235), with the direction gain table's where the speaker table has TABLE set
on an output (R66). (log 19: DESIGN CHOICE, safe; log 87: DEDUCED, unsafe.) -/
def builtinArea (i : Image) (table : Bool) : Nat :=
  let retain := if i.pairId = 0 then 0
    else 4 * (i.outs.map (fun o => 96 + 6 * (o.biqMax + o.xoMax) + 2 * ((imgN i + 1) / 2))).sum
  let fir := if i.outs.any (fun o => o.convMax > 0) then 65536 else 0
  (if table then 131072 else 0) + retain + fir + Config.builtinWords i.nObj i.nOut

/-- AREAS (R480, R363). -/
def areaChecks (a : List Byte) (i : Image) : List FieldCheck :=
  let low := 0x100000 - builtinArea i false
  (decide (builtinArea i false ≤ 0x100000), secErr 1 0) ::
  i.areas.zipIdx.flatMap (fun p =>
    let prev := if p.2 = 0 then 0 else match i.areas[p.2 - 1]? with | some q => q.1 + q.2 | none => 0
    [(allZero (sub a (16 * p.2 + 8) 8), secErr 12 (16 * p.2 + 8)),
     (decide (prev ≤ p.1.1) && (p.2 = 0 || decide ((nth (0, 0) i.areas (p.2 - 1)).1 < p.1.1)), secErr 12 (16 * p.2)),
     (decide (p.1.1 + p.1.2 ≤ low), secErr 12 (16 * p.2))])

/-- Every check of the sections (R484 step 3), in order of their types. (log 86: DEDUCED, unsafe.) -/
def sectionChecks (d : Device) (b : List Byte) : List FieldCheck :=
  let spoke := d.pwr.spoke
  let i := parseImage b spoke
  let lens := (sections b).map (fun s => (secLenOk s.typ s.len i.nObj i.nOut, secErr s.typ 0))
  globalChecks (secBytes b 1) i spoke ++ lens ++ pairChecks b (secBytes b 2) i spoke
    ++ elementChecks (secBytes b 4) i spoke ++ dramChecks d (secBytes b 5) i ++ netChecks (secBytes b 6) (secBytes b 7)
    ++ (if spoke then pscChecks d (secBytes b 8) i else []) ++ sinkChecks d (secBytes b 9) i
    ++ taskChecks (secBytes b 10) i spoke ++ codeChecks i ++ areaChecks (secBytes b 12) i

/-! ## The load (R478, R484, R485) -/

/-- Spare cores of an image (R311): CORE(8k + 7) for k from 7 down to 8 − S. -/
def spareCores (s : Nat) : List Nat := (List.range s).map (fun j => 8 * (7 - j) + 7)

/-- Core states as the image sets them, with a record of each change (R310): spares, the rest available, cores with an
unrepaired region offline; no core has work. (log 88: DEDUCED, unsafe.) -/
def imageCores (s : Nat) (e : Env) (d : Device) : Device :=
  forAll (List.range 64) (fun c d =>
    let k := cslotAt d c
    let st : CoreSt := if k.unrepaired then .offline else if (spareCores s).contains c then .spare else .available
    let d := modCslot c (fun k => { k with running := none, ready := [], suspended := none }) d
    let d := modCore c (fun x => { resetExec x with saved := none, sxfers := [], parked := [] }) d
    if k.st = st then d else setCoreSt c st 0 e d) d

/-- The budget check of an image (R33): every command term at its default. -/
def imageCheck (d : Device) (i : Image) : Check :=
  let avail := (List.range 64).filter (fun c => !(cslotAt d c).unrepaired && !(spareCores i.spares).contains c)
  budgetCheck
    { img := i, spoke := d.pwr.spoke, scarf := i.scarfXp, busAlign := fun _ => false, xoSrc := fun n => n
      tValid := 0, avail := avail, homes := [], places := [] }

/-- The refusal of the load before the image is read (R478, R475), 0 for none. (log 108: DEDUCED, safe.) -/
def loadRefusal (d : Device) : Nat :=
  if d.pwr.rendering then 0x010A
  else if !dramReadyNow then 0x0127
  else if !d.ring.busMaster then 0x0106
  else if d.img.addr.toNat % 64 ≠ 0 then 0x0104
  else if d.img.len.toNat % 64 ≠ 0 || !between 128 4194304 d.img.len.toNat then 0x0103
  else if d.jrn.otpFail then 0x0126
  else 0
where
  dramReadyNow : Bool := (List.range 2).all (fun c => (dchAt d c).ready && (dchAt d c).failed.isNone)

/-- The loaded image is discarded (R484 step 1): what the engines' areas of DRAM hold stays in it (R388). -/
def discardImage (d : Device) : Device :=
  let d := settleDram d
  { d with img := { d.img with img := none } }

/-- A refused load: REFUSED with its code and detail; the device is unconfigured. -/
def imgRefuse (code : Nat) (detail : List Nat) (d : Device) : Device :=
  let d := if code = 0x010A then d else discardImage d
  { d with img := { d.img with st := 3, code := code, detail := (List.range 4).map (fun j => nth 0 detail j) } }

/-- IMG_LOAD: a write of IMG_CTL.LOAD; nothing happens while a load runs. A load that R478 refuses ends at once.
(log 86: DEDUCED, unsafe.) -/
def imgLoad (d : Device) : Device :=
  if d.img.st = 1 then d
  else
    let r := loadRefusal d
    if r ≠ 0 then imgRefuse r [] d
    else
      let d := discardImage d
      { d with img := { d.img with st := 1, code := 0, detail := [0, 0, 0, 0] } }

/-- What the parameters of a power channel keep when an image is applied: its counters (R294). -/
def keepPch (p : Pch) : Pch :=
  { pwmClip := p.pwmClip, ocComp := p.ocComp, ocSense := p.ocSense, ocIdle := p.ocIdle }

/-- Applying an image (R485). (log 88: DEDUCED, unsafe.) -/
def imgApply (i : Image) (sinks : List SinkAsg) (c : Check) (e : Env) (d : Device) : Device :=
  let d := { d with img := { d.img with
    img := some i, st := 2, code := 0, imgId := i.imgId, ssLow := 0x100000 - builtinArea i false, budget := c.words
    margins := c.margins.map (uext 32), detail := c.margins.map (uext 32) } }
  let d := { d with geo := { flagCnt := d.geo.flagCnt, overruns := d.geo.overruns } }
  let d := { d with xp := { app := { scarfXp := i.scarfXp }, live := { scarfXp := i.scarfXp }, words := d.xp.words
                            badWords := d.xp.badWords, badEntries := d.xp.badEntries, flagCnt := d.xp.flagCnt } }
  let ain := fun (r : Nat) =>
    let m := ainMedAt d r
    let slip := !i.bridgeMask.getLsbD r
    ({ slipApp := slip, slip := slip, slips := m.slips, bridgeMute := m.bridgeMute, bridgeLock := m.bridgeLock
       rateMismatch := m.rateMismatch } : AinMedia)
  let d := { d with inp := { rxCnt := d.inp.rxCnt, ain := mofList {} ((List.range 8).map ain) } }
  let d := { d with chn := { d.chn with
    outs := mmap {} (fun _ (o : OutState) => ({ overruns := o.overruns, clip := o.clip } : OutState)) d.chn.outs
    groups := [], sinks := sinks, cveReset := none, launched := none } }
  let d := { d with psc := { dec := mmap {} (fun _ (c : Dec) => ({ gainU := c.gainU, ofsU := c.ofsU } : Dec)) d.psc.dec
                             pch := mmap {} (fun _ p => keepPch p) d.psc.pch, cyc := d.psc.cyc } }
  let port := fun (p : Nat) =>
    let q : NetPort := nth {} i.net p
    let old := portAt d p
    let new : Port :=
      { old with mac := q.mac, macLow := BitVec.ofNat 32 q.mac.toNat, ipv4 := q.ipv4, phy := q.phy, fec := q.fec
                 maxFrame := q.maxFrame }
    new
  let d := { d with eth := { d.eth with
    tx := [], tx1 := [], tx2 := []
    ports := mofList ({} : Port) ((List.range 4).map port) } }
  let d := { d with ring := { d.ring with
    rings := mdrop d.ring.rings (fun r => decide (4 ≤ r)), ain := [], aoutGap := [] } }
  let code : List (Nat × BitVec 64) := (List.range 8).flatMap (fun cl => i.code.zipIdx.map (fun p => (65536 * cl + 0x8000 + p.2, p.1)))
  let d := { d with imem := msets 0 [] code, mem := { d.mem with
    imemBad := d.mem.imemBad.filter (fun a => a % 65536 < 0x8000)
    wb := d.mem.wb.filter (fun p => match p with | .imem _ a => decide (a < 0x8000) | _ => true) } }
  let bytes := d.dram.bytes
  let copy : List Host.Cell := mofList 0 ((i.code.flatMap (fun w => leBytes 8 w.toNat)))
  let d := { d with dram := { d.dram with
    bytes := bytes.filter (fun (c : Host.Cell) => c.1 < i.codeBase) ++ copy.map (fun (c : Host.Cell) => (i.codeBase + c.1, c.2))
      ++ bytes.filter (fun (c : Host.Cell) => decide (i.codeBase + 262144 ≤ c.1)) } }
  let d := { d with disp := { d.disp with
    tasks := buildTable i d.pwr.spoke (fun _ => false), store := [], finished := [], homes := c.asg.homes
    places := c.asg.places, background := [], reruns := [], mdRuns := [], copy := none, copyNext := [], orphans := []
    cancelled := none, budgetLost := false, resets := [], resetAt := none } }
  let d := imageCores i.spares e d
  let d := setPairSt (if i.pairId = 0 && !d.pwr.spoke then .single else .stopped) 0 e d
  let d := { d with pair := { d.pair with singleFit := true, cause := 0 } }
  let d := { d with clk := { d.clk with wclk := i.wclkCfg } }
  let d := clockRef i.clockRef e d
  when d.pwr.spoke (railCaps e) d

/-- IMG_LOAD_DONE: the whole image has been read: header and CRC, sections and fields, the budget check, the
application; the first failing step refuses the image. (log 88: DEDUCED, unsafe.) -/
def imgLoadDone (e : Env) (d : Device) : Device :=
  if d.img.st ≠ 1 then d
  else
    match dmaRead e d d.img.addr.toNat d.img.len.toNat with
    | none => imgRefuse 0x0106 [] d
    | some b =>
      let d := { d with img := { d.img with imgId := BitVec.ofNat 64 (fld b 0x10 8) } }
      let checks := headerChecks b d.img.len.toNat d.pwr.spoke ++ directoryChecks b d.img.len.toNat d.pwr.spoke
      match firstBad checks with
      | some x => imgRefuse x.code [x.sect, x.off] d
      | none =>
        match firstBad (sectionChecks d b) with
        | some x => imgRefuse x.code [x.sect, x.off] d
        | none =>
          let i := parseImage b d.pwr.spoke
          let c := imageCheck d i
          match c.fail with
          | some f => imgRefuse 0x0107 (failDetail f) d
          | none => imgApply i (sinkRecs (secBytes b 9)) c e d

/-- IMG_LOAD: write of IMG_CTL.LOAD (R478). -/
def execImgLoad (h : HostView) (s : State) : Host.Outcome State Fault Refusal := hostActH h (fun _ d => imgLoad d) s

/-- IMG_LOAD_DONE (R484, R485). -/
def execImgLoadDone (h : HostView) (s : State) : Host.Outcome State Fault Refusal := actH h imgLoadDone s

end Sys2Proof.Machine
end

