-- ==== Sys2Proof/Machine/Params.lean ====
section
/-! DEFINITION. The parameters of PARAM_WRITE (R287 to R290): every space and number, with its range line. -/
namespace Sys2Proof.Machine

/-- What one member's write does: the device after it, the refusal (0 none), whether a value was taken as a limit,
whether the member lacks the block. -/
structure PRes where
  dev : Device
  status : Nat := 0
  clamped : Bool := false
  skip : Bool := false
deriving DecidableEq, Repr

/-- Status codes of R296 used here. -/
def stArgs : Nat := 0x0102
def stRange : Nat := 0x0103
def stRole : Nat := 0x0109

def pRefuse (code : Nat) (d : Device) : PRes := { dev := d, status := code }

/-- An integer against its range: what lies below or above is refused or taken as the limit. -/
def pInt (clampLo clampHi : Bool) (lo hi v : Int) (k : Int → Device) (d : Device) : PRes :=
  if v < lo then (if clampLo then { dev := k lo, clamped := true } else pRefuse stRange d)
  else if v > hi then (if clampHi then { dev := k hi, clamped := true } else pRefuse stRange d)
  else { dev := k v }

/-- An integer that is refused outside its range. -/
def pEnum (lo hi v : Int) (k : Nat → Device) (d : Device) : PRes := pInt false false lo hi v (fun x => k x.toNat) d

/-- An integer that is taken as the nearer limit. -/
def pLim (lo hi v : Int) (k : Nat → Device) (d : Device) : PRes := pInt true true lo hi v (fun x => k x.toNat) d

/-- An F36 value against its range. -/
def pF36 (clampLo clampHi : Bool) (lo hi v : F36) (k : F36 → Device) (d : Device) : PRes :=
  if flt v lo then (if clampLo then { dev := k lo, clamped := true } else pRefuse stRange d)
  else if flt hi v then (if clampHi then { dev := k hi, clamped := true } else pRefuse stRange d)
  else { dev := k (fcanon v) }

def pFLim (lo hi v : F36) (k : F36 → Device) (d : Device) : PRes := pF36 true true lo hi v k d
def pFRef (lo hi v : F36) (k : F36 → Device) (d : Device) : PRes := pF36 false false lo hi v k d

/-- 2^k as F36. -/
def f36Pow (k : Int) : F36 := ofDy ⟨1, k⟩

/-- 1.01 and 15.849 as held (R544). -/
def relMax : F36 := f36Rat 101 100

/-! ## Numbers and encodings (R288, R289) -/

/-- Parameters of a space. -/
def paramCount : Nat → Nat
  | 0 => 7 | 1 => 8 | 2 => 20 | 3 => 21 | 4 => 5 | 5 => 3 | 6 => 1 | 7 => 1 | 8 => 18 | 9 => 7 | _ => 0

/-- The parameters whose VALUE is an F36 value. -/
def paramF36 (space pnum : Nat) : Bool :=
  match space with
  | 0 => pnum ≠ 4 && pnum ≠ 5
  | 2 => pnum = 0 || (11 ≤ pnum && pnum ≤ 16)
  | 3 => pnum ≠ 3 && pnum ≠ 5 && pnum ≠ 6 && pnum ≠ 7 && pnum ≠ 17
  | 4 => pnum ≠ 4
  | 8 => pnum = 7 || pnum = 8 || pnum = 13 || pnum = 14
  | 9 => pnum = 3 || pnum = 5 || pnum = 6
  | _ => false

/-- Parameters that a REL write may name (R173). (log 76: DEDUCED, unsafe.) -/
def paramRel (space pnum : Nat) : Bool := space = 2 && (pnum = 0 || pnum = 10 || pnum = 11 || pnum = 13)

/-- Writes that change a chain's configuration, each one swap of its output (R162, R174). -/
def paramSwap (space pnum : Nat) : Bool := space = 2 && ((4 ≤ pnum && pnum ≤ 10) || pnum = 19)

/-- Writes that run the budget check (R290). -/
def paramBudget (space pnum : Nat) : Bool := (space = 0 && (pnum = 4 || pnum = 5)) || (space = 2 && pnum = 19)

/-- An element of a space exists (R545). -/
def paramElem (d : Device) (space idx : Nat) : Bool :=
  match space with
  | 0 => idx = 0 | 1 => idx < nObj d | 2 => idx < nOut d | 3 => pchConfigured d idx | 4 => idx < 4 | 5 => idx < 128
  | 6 => idx < 8
  | 7 => localSrcs.contains idx
  | 8 => idx < 40 | 9 => idx < 16 | _ => false

/-! ## GLOBAL -/

/-- The change of the image in force that SWAP_MAX makes. -/
def setSwapMax (v : Nat) (d : Device) : Device :=
  { d with img := { d.img with img := d.img.img.map (fun i => { i with swapMax := v }) } }

def paramGlobal (pnum : Nat) (v : Int) (f : F36) (d : Device) : PRes :=
  let hundredth := f36Rat 1 100
  let gap := fun (lo hi : F36) => dyLe (toDy hundredth) (dySub (toDy hi) (toDy lo))
  match pnum with
  | 0 => pFLim (fint (-30)) (fint 50) f (fun x => { d with geo := { d.geo with temp := setTemp x d.geo.temp } }) d
  | 1 => if !gap f d.geo.wfsHi then pRefuse stRange d
      else pFRef 0 (f36Rat 9 10) f (fun x => { d with geo := { d.geo with wfsLo := x } }) d
  | 2 => if !gap d.geo.wfsLo f then pRefuse stRange d
      else pFRef 0 fOne f (fun x => { d with geo := { d.geo with wfsHi := x } }) d
  | 3 => pFLim (f36Pow (-10)) (fint 16) f (fun x => { d with xp := { d.xp with app := { d.xp.app with gainSlew := x } } }) d
  | 4 => pEnum (nOut d) 32768 v (fun x => { d with xp := { d.xp with app := { d.xp.app with scarfXp := x } } }) d
  | 5 => pEnum 1 512 v (fun x => setSwapMax x d) d
  | _ => pFLim (fint (-30)) (fint 60) f (fun x => { d with psc := { d.psc with tAmb := x } }) d

/-! ## OBJECT (R47, R52, R93, R95) -/

def modObjP (o : Nat) (f : ObjParams → ObjParams) (d : Device) : Device :=
  modObj o (fun x => { x with params := f x.params }) d

def mdSrcOf : Nat → MdSrc
  | 0 => .ring | 1 => .stream | _ => .command

/-- A change of source (R52): the held motion state stays, records still waiting from the old source are dropped.
(log 52: DEDUCED, unsafe.) -/
def setMdSrc (o : Nat) (m : MdSrc) (d : Device) : Device :=
  modObj o (fun x => if x.params.mdSrc = m then x
    else { x with params := { x.params with mdSrc := m }, pend := [] }) d

def paramObject (o pnum : Nat) (v : Int) (d : Device) : PRes :=
  let mm := fun (k : Nat → Device) => pInt true false 100 8388607 v (fun x => k x.toNat) d
  match pnum with
  | 0 => pEnum 0 2 v (fun x => setMdSrc o (mdSrcOf x) d) d
  | 1 => pEnum 0 0xFFFFFFFF v (fun x => modObjP o (fun p => { p with zoneMask := BitVec.ofNat 32 x }) d) d
  | 2 => mm (fun x => modObjP o (fun p => { p with rRef := x }) d)
  | 3 => mm (fun x => modObjP o (fun p => { p with rMin := x }) d)
  | 4 => mm (fun x => modObjP o (fun p => { p with wfsDref := x }) d)
  | 5 => pEnum 0 1 v (fun x => modObjP o (fun p => { p with dlyMode := x = 1 }) d) d
  | 6 =>
    if v < 0 || v > 262143 then pRefuse stRange d
    else if v ≠ 0 && !(cfg d).objBulkEn then pRefuse 0x010F d
    else { dev := modObjP o (fun p => { p with objBulk := v.toNat }) d }
  | _ => pEnum 0 65535 v (fun x => modObjP o (fun p => { p with staleFrames := x }) d) d

/-! ## OUTPUT (R151, R155, R139) -/

def modOutP (n : Nat) (f : OutCfg → OutCfg) (d : Device) : Device := modOut n (fun o => { o with app := f o.app }) d

/-- XO_SRC of chain `n` may become `m` (R155). -/
def xoOk (d : Device) (n m : Nat) : Bool :=
  let src := fun k => xoSrcOf (outAt d k).app k
  if !d.pwr.spoke then m = n && decide (n < nOut d)
  else decide (m < nOut d)
    && (m = n || (src m = m && !(List.range (nOut d)).any (fun k => k ≠ n && src k = n)))

/-- The block that an OUTPUT parameter belongs to is absent (R173). -/
def outLacks (d : Device) (n pnum : Nat) : Bool :=
  let s := outStat (cfg d) n
  (pnum = 4 && s.biqMax = 0) || (pnum = 5 && s.xoMax = 0) || (pnum = 6 && s.convMax = 0)

def paramOutput (n pnum : Nat) (rel : Bool) (v : Int) (f : F36) (d : Device) : PRes :=
  let c := (outAt d n).app
  let en := fun (k : Bool → OutCfg → OutCfg) => pEnum 0 1 v (fun x => modOutP n (k (x = 1)) d) d
  let g := fun (cur : F36) => if rel then fmul cur f else f
  let small := f36Pow (-20)
  if outLacks d n pnum then { dev := d, skip := true }
  else match pnum with
  | 0 => pF36 false true 0 gainMax (g c.trim) (fun x => modOutP n (fun c => { c with trim := x }) d) d
  | 1 => en (fun b c => { c with pol := b })
  | 2 => en (fun b c => { c with mute := b })
  | 3 => pLim 1 600 v (fun x => modOutP n (fun c => { c with gainRamp := x }) d) d
  | 4 => en (fun b c => { c with biqEn := b })
  | 5 => en (fun b c => { c with xoEn := b })
  | 6 => en (fun b c => { c with convEn := b })
  | 7 => en (fun b c => { c with limEn := b })
  | 8 => if v = 0 && (pchOfOut d n).isSome then pRefuse stRange d else en (fun b c => { c with dchpEn := b })
  | 9 => if v < 0 || !xoOk d n v.toNat then pRefuse stRange d
      else { dev := modOutP n (fun c => { c with xoSrc := if v.toNat = n then none else some v.toNat }) d }
  | 10 =>
    let w := if rel then (c.outBulk : Int) + v else v
    if w < 0 || w > 262143 then pRefuse stRange d
    else if w ≠ 0 && !(cfg d).outBulkEn then pRefuse 0x010F d
    else { dev := modOutP n (fun c => { c with outBulk := w.toNat }) d }
  | 11 => pFLim small fOne (g c.pkThr) (fun x => modOutP n (fun c => { c with pkThr := x }) d) d
  | 12 => pFLim fOne relMax f (fun x => modOutP n (fun c => { c with pkRel := some x }) d) d
  | 13 => pFLim small fOne (g c.rmsThr) (fun x => modOutP n (fun c => { c with rmsThr := x }) d) d
  | 14 => pFLim small (f36Pow (-4)) f (fun x => modOutP n (fun c => { c with rmsA := some x }) d) d
  | 15 => pFLim (f36Pow (-16)) fOne f (fun x => modOutP n (fun c => { c with rmsAtt := some x }) d) d
  | 16 => pFLim fOne relMax f (fun x => modOutP n (fun c => { c with rmsRel := some x }) d) d
  | 17 => en (fun b c => { c with dither := b })
  | 18 => if v = 16 || v = 20 || v = 24 then { dev := modOutP n (fun c => { c with outWl := v.toNat }) d }
      else pRefuse stRange d
  | _ => en (fun b c => { c with busAlign := b })

/-! ## CHANNEL (R182, R188, R211) -/

/-- A change of a power channel's parameters as applied (R27). -/
def modPchP (n : Nat) (f : PchCfg → PchCfg) (d : Device) : Device :=
  modPch n (fun p => { p with cfgs := match p.cfgs with | c :: r => f c :: r | [] => [f {}] }) d

/-- DT and M_MAX keep the shortest pulse (R188). -/
def deadOk (dt : Nat) (mMax : F36) : Bool :=
  decide (dyFloor (dyMul (dySub (toDy fOne) (toDy mMax)) (dyInt 781)) ≥ (dt : Int) + 4)

/-- A thermal time constant is at least 0.01 s (R211). -/
def tauOk (r c : F36) : Bool := dyLe (toDy (f36Rat 1 100)) (dyMul (toDy r) (toDy c))

def paramChannel (n pnum : Nat) (v : Int) (f : F36) (d : Device) : PRes :=
  let c := pcfg (pchAt d n) 0
  let set := fun (k : F36 → PchCfg → PchCfg) (x : F36) => modPchP n (k x) d
  let seti := fun (k : Nat → PchCfg → PchCfg) (x : Nat) => modPchP n (k x) d
  let c100 := f36Rat 1 100
  match pnum with
  | 0 => pFLim fOne (fint 250) f (set (fun x c => { c with voutFs := x })) d
  | 1 => pFLim fOne (fint 1000) f (set (fun x c => { c with vScale := x })) d
  | 2 => pFLim (f36Rat 1 10) (fint 500) f (set (fun x c => { c with iScale := x })) d
  | 3 =>
    let r := pLim 2 255 v (seti (fun x c => { c with dt := x })) d
    if deadOk (pcfg (pchAt r.dev n) 0).dt c.mMax then r else pRefuse stRange d
  | 4 =>
    let r := pFLim fHalf (f36Rat 99 100) f (set (fun x c => { c with mMax := x })) d
    if deadOk c.dt (pcfg (pchAt r.dev n) 0).mMax then r else pRefuse stRange d
  | 5 => pLim 3 600 v (seti (fun x c => { c with cmRamp := x })) d
  | 6 => pLim 1 600 v (seti (fun x c => { c with retryRamp := x })) d
  | 7 => pLim 50 1500 v (seti (fun x c => { c with ocThr := x })) d
  | 8 => pFRef fOne (fint 64) f (set (fun x c => { c with re0 := x })) d
  | 9 => pFRef (fint (-30)) (fint 60) f (set (fun x c => { c with t0 := x })) d
  | 10 => pFRef (f36Rat 30 10000) (f36Rat 50 10000) f (set (fun x c => { c with alpha := x })) d
  | 11 => if tauOk f c.cthC then pFRef c100 (fint 100) f (set (fun x c => { c with rthC := x })) d else pRefuse stRange d
  | 12 => if tauOk c.rthC f then pFRef (f36Rat 1 10) (fint 10000) f (set (fun x c => { c with cthC := x })) d
      else pRefuse stRange d
  | 13 => if tauOk f c.cthM then pFRef c100 (fint 100) f (set (fun x c => { c with rthM := x })) d else pRefuse stRange d
  | 14 => if tauOk c.rthM f then pFRef fOne (fint 100000) f (set (fun x c => { c with cthM := x })) d
      else pRefuse stRange d
  | 15 => pFRef (fint 60) (fint 350) f (set (fun x c => { c with tMax := x })) d
  | 16 => pFRef 0 (fint 50) f (set (fun x c => { c with tMargin := x })) d
  | 17 => pEnum 60 6000 v (seti (fun x c => { c with reWin := x })) d
  | 18 => pFRef (f36Rat 1 1000) (fint 10) f (set (fun x c => { c with reImin := x })) d
  | 19 => pFRef 0 fOne f (set (fun x c => { c with reK := x })) d
  | _ => pFRef fOne relMax f (set (fun x c => { c with xRel := some x })) d

/-! ## RAIL (R201) -/

def paramRail (g pnum : Nat) (v : Int) (f : F36) (d : Device) : PRes :=
  match pnum with
  | 0 => pFLim (fint 10) (railMax d g) f (fun x => modRail g (fun r => { r with min := some x }) d) d
  | 1 =>
    if flt (railLimit d g) f then pRefuse 0x011B d
    else if flt f (railMin d g) then pRefuse stRange d
    else { dev := modRail g (fun r => { r with max := some (fcanon f) }) d }
  | 2 => pFLim 0 (fint 50) f (fun x => modRail g (fun r => { r with head := x }) d) d
  | 3 => pFLim (f36Rat 1 100) (fint 50) f (fun x => modRail g (fun r => { r with decay := x }) d) d
  | _ => pLim 0 6000 v (fun x => modRail g (fun r => { r with hold := x }) d) d

/-! ## STREAM, AIN, SOURCE (R122, R125, R128, R134, R481) -/

def modRx (s : Nat) (f : RxSlot → RxSlot) (d : Device) : Device :=
  { d with inp := { d.inp with rx := mmod {} d.inp.rx s f } }

def paramStream (s pnum : Nat) (v : Int) (d : Device) : PRes :=
  match pnum with
  | 0 => pEnum 0 30 v (fun x => modRx s (fun r => { r with rxOffset := some x }) d) d
  | 1 => pInt false true 0 8 v (fun x => modRx s (fun r => { r with holdMax := x.toNat }) d) d
  | _ => pLim 1 600 v (fun x => modRx s (fun r => { r with revive := x }) d) d

def paramAin (r : Nat) (v : Int) (d : Device) : PRes :=
  if v = 0 && !(cfg d).bridgeMask.getLsbD r then pRefuse stRange d
  else pEnum 0 1 v (fun x => modAinMed r (fun m => { m with slipApp := x = 1 }) d) d

def paramSource (src : Nat) (v : Int) (d : Device) : PRes :=
  pEnum 1 2 v (fun x => { d with inp := { d.inp with ownerB := mset false d.inp.ownerB src (x = 2) } }) d

/-! ## DEC (R140, R207, R208) -/

/-- A chain that runs: started, or reserved while rendering runs (R180). -/
def chainRuns (d : Device) (c : Nat) : Bool := (decAt d c).started || (chainReserved d c && d.pwr.rendering)

def paramDetector (lo : Bool) (c pnum : Nat) (v : Int) (f : F36) (d : Device) : PRes :=
  let set := fun (k : Detector → Detector) => modDec c (fun x => withDet lo (k (detOf lo x)) x) d
  match pnum with
  | 0 => pEnum 0 3 v (fun x => set (fun t => { t with mode := x })) d
  | 1 => pFLim (fneg fOne) fOne f (fun x => set (fun t => { t with thr := some x })) d
  | 2 => pFLim 0 fHalf f (fun x => set (fun t => { t with hys := x })) d
  | 3 => pLim 0 600 v (fun x => set (fun t => { t with hold := x })) d
  | 4 => pEnum 0 (if d.pwr.spoke then 2 else 1) v (fun x => set (fun t => { t with act := x })) d
  | _ => pEnum 0 0xFFFF v (fun x => set (fun t => { t with mask := BitVec.ofNat 16 x })) d

def paramDec (c pnum : Nat) (v : Int) (f : F36) (d : Device) : PRes :=
  let running := if pnum = 0 then (List.range 8).any (fun j => chainRuns d (c / 8 * 8 + j)) else chainRuns d c
  if pnum < 5 && running then pRefuse 0x0114 d
  else match pnum with
  | 0 => pEnum 0 1 v (fun x => forAll ((List.range 8).map (c / 8 * 8 + ·)) (fun k d =>
      modDec k (fun q => { q with bsRate := x }) d) d) d
  | 1 => pEnum 3 5 v (fun x => modDec c (fun q => { q with cicOrder := x }) d) d
  | 2 => if v = 8 || v = 16 || v = 32 then { dev := modDec c (fun q => { q with cicDec := some v.toNat }) d }
      else pRefuse stRange d
  | 3 => pEnum 1 3 v (fun x => modDec c (fun q => { q with hbCount := some x }) d) d
  | 4 => pEnum 0 62 v (fun x => modDec c (fun q => { q with firGd := x }) d) d
  | 5 => if v = 1 && d.pwr.spoke && 32 ≤ c && c < 36 && chainReserved d c then pRefuse stRange d
      else pEnum 0 1 v (fun x => modDec c (fun q => { q with hpfEn := some (x = 1) }) d) d
  | _ => if pnum < 12 then paramDetector false c (pnum - 6) v f d else paramDetector true c (pnum - 12) v f d

/-! ## DPATH (R144) -/

def modPath (p : Nat) (f : DpCfg → DpCfg) (d : Device) : Device :=
  { d with inp := { d.inp with dp := mmod {} d.inp.dp p (fun x => { x with app := f x.app }) } }

/-- A source that a path may take: an AES subframe in SLIP mode, or a chain. -/
def pathSrcOk (d : Device) (src : Nat) : Bool :=
  (0x3000 ≤ src && src < 0x3028)
    || (0x2000 ≤ src && src < 0x2010 && (ainMedAt d ((src - 0x2000) / 2)).slipApp)

/-- A sink that a path may feed. -/
def pathSinkOk (d : Device) (k : Nat) : Bool :=
  (0x1000 ≤ k && k < 0x1010) || (d.pwr.spoke && 0x2000 ≤ k && k < 0x2010)

def paramPath (p pnum : Nat) (v : Int) (f : F36) (d : Device) : PRes :=
  match pnum with
  | 0 => pEnum 0 1 v (fun x => modPath p (fun c => { c with en := x = 1 }) d) d
  | 1 => if v < 0 || !pathSrcOk d v.toNat then pRefuse stRange d
      else { dev := modPath p (fun c => { c with src := v.toNat }) d }
  | 2 => if v < 0 || !pathSinkOk d v.toNat then pRefuse stRange d
      else { dev := modPath p (fun c => { c with sink := v.toNat }) d }
  | 3 => pF36 false true 0 gainMax f (fun x => modPath p (fun c => { c with gain := x }) d) d
  | 4 => pEnum 0 6 v (fun x => modPath p (fun c => { c with hp := x }) d) d
  | 5 => pFLim (f36Pow (-20)) fOne f (fun x => modPath p (fun c => { c with thr := x }) d) d
  | _ => pFLim fOne relMax f (fun x => modPath p (fun c => { c with rel := some x }) d) d

/-! ## One member's write -/

/-- Write one parameter of one element. `raw` is VALUE as 64 bits. -/
def writeParam (space pnum idx : Nat) (rel : Bool) (raw : Nat) (d : Device) : PRes :=
  let v := sext 64 raw
  let f : F36 := BitVec.ofNat 36 raw
  match space with
  | 0 => paramGlobal pnum v f d
  | 1 => paramObject idx pnum v d
  | 2 => paramOutput idx pnum rel v f d
  | 3 => paramChannel idx pnum v f d
  | 4 => paramRail idx pnum v f d
  | 5 => paramStream idx pnum v d
  | 6 => paramAin idx v d
  | 7 => paramSource idx v d
  | 8 => paramDec idx pnum v f d
  | _ => paramPath idx pnum v f d

/-- Members of a target (R172): ONE, the members of GROUP as they stand, ALL. -/
def targetMembers (d : Device) (space target index : Nat) : List Nat :=
  if target = 0 then [index]
  else
    let all : List Nat :=
      match space with
      | 1 => List.range (nObj d)
      | 2 => List.range (nOut d)
      | 3 => (List.range 16).filter (pchConfigured d)
      | 4 => List.range 4 | 5 => List.range 128 | 6 => List.range 8 | 7 => localSrcs
      | 8 => List.range 40 | _ => List.range 16
    if target = 2 then all else all.filter (fun n => (mget 0 d.chn.groups index).getLsbD n)

/-- Writes to several members, in increasing index: the device, members clamped, members skipped, first refusal. -/
structure GroupRes where
  dev : Device
  clamped : Nat := 0
  skipped : Nat := 0
  status : Nat := 0
deriving DecidableEq, Repr

def writeMembers (space pnum : Nat) (rel : Bool) (raw : Nat) (ms : List Nat) (d : Device) : GroupRes :=
  ms.foldl (fun a m =>
    if a.status ≠ 0 then a
    else
      let r := writeParam space pnum m rel raw a.dev
      { dev := r.dev, clamped := a.clamped + (if r.clamped then 1 else 0)
        skipped := a.skipped + (if r.skip then 1 else 0), status := r.status }) { dev := d }

end Sys2Proof.Machine
end

