-- ==== Sys2Proof/Machine/Tables.lean ====
section
/-! DEFINITION. Operands of commands that carry tables (R60 to R66, R81, R154, R286): speakers, triangles, direction
gains, DIRECT values, coefficient sets, object motion. Each has its check, which names the first bad entry and the
rule it breaks, and its effect on the device. -/
namespace Sys2Proof.Machine

/-- The first bad entry of a list of rule numbers (0: good), counted from `base`. (log 53: DEDUCED, unsafe.) -/
def firstRule (base : Nat) : List Nat → Option (Nat × Nat)
  | [] => none
  | 0 :: r => firstRule (base + 1) r
  | n :: _ => some (base, n)

/-- Entries of `w` bytes. -/
def entries (w n : Nat) (b : List Byte) : List (List Byte) := (List.range n).map (fun i => sub b (w * i) w)

/-! ## Speakers (R61, R62) -/

def spkEntry (x : List Byte) : Speaker :=
  { x := sfld x 0 3, y := sfld x 3 3, z := sfld x 6 3, laws := BitVec.ofNat 8 (fld x 9 1)
    tabCol := BitVec.ofNat 8 (fld x 10 1), zoneMask := BitVec.ofNat 32 (fld x 12 4)
    nx := f36At x 0x10, ny := f36At x 0x18, nz := f36At x 0x20, gainTrim := f36At x 0x28, dlyTrim := f36At x 0x30 }

/-- The rule of R62 that an entry breaks, 0 for none: 1 F36 fields, 2 TAB_COL, 3 normal, 4 GAIN_TRIM, 5 DLY_TRIM. -/
def spkRule (x : List Byte) : Nat :=
  let s := spkEntry x
  let table := s.laws.getLsbD 3
  let tiny := f36Pow (-16)
  let n2 := fadd (fadd (fmul s.nx s.nx) (fmul s.ny s.ny)) (fmul s.nz s.nz)
  if !([0x10, 0x18, 0x20, 0x28, 0x30].all (f36Ok x)) then 1
  else if (s.tabCol.toNat > 63 && s.tabCol ≠ 0xFF#8) || (table && s.tabCol = 0xFF#8) then 2
  else if s.laws.getLsbD 1 && (flt n2 (fsub fOne tiny) || flt (fadd fOne tiny) n2) then 3
  else if flt s.gainTrim 0 || flt gainMax s.gainTrim then 4
  else if flt s.dlyTrim (fint (-24576)) || flt (fint 393216) s.dlyTrim then 5
  else 0

/-- A committed table is in use from the evaluation of AF on (R63); TABLE on an output reserves the words of the direction
gain table, which moves SS_LOW (R66, R363). (log 87: DEDUCED, unsafe.) -/
def spkApply (first n : Nat) (b : List Byte) (d : Device) : Device :=
  let spk := msets {} d.geo.spk ((entries 64 n b).zipIdx.map (fun p => (first + p.2, spkEntry p.1)))
  { d with
    geo := { d.geo with spk := spk }
    img := { d.img with ssLow := 0x100000 - builtinArea (cfg d) (spk.any (fun p => p.2.laws.getLsbD 3)) } }

/-! ## Triangles (R64, R65) -/

def triEntry (x : List Byte) : Triangle :=
  { a := fld x 0 2, b := fld x 2 2, c := fld x 4 2, valid := bit (fld x 6 1) 0
    inv := (List.range 9).map (fun i => f36At x (8 + 8 * i)) }

/-- The rule of R65 that a VALID triangle breaks on the speaker table: 1 index, 2 law, 3 equal corners. -/
def triCorners (d : Device) (t : Triangle) : Nat :=
  let laws := fun n => (mget {} d.geo.spk n).laws
  if !t.valid then 0
  else if [t.a, t.b, t.c].any (fun n => decide (n ≥ nOut d)) then 1
  else if [t.a, t.b, t.c].any (fun n => !((laws n).getLsbD 2 && (laws n).getLsbD 7)) then 2
  else if t.a = t.b || t.b = t.c || t.a = t.c then 3
  else 0

/-- The rule of R65 that an entry of the command breaks: those, or 4 F36 field. -/
def triRule (d : Device) (x : List Byte) : Nat :=
  let t := triEntry x
  let r := triCorners d t
  if r ≠ 0 then r
  else if t.valid && !((List.range 9).all (fun i => f36Ok x (8 + 8 * i))) then 4
  else 0

/-- The first bad entry of the staged copy and its rule (R63, R65): the table with the command's entries from index `first` on,
in table order. -/
def triStaged (first n : Nat) (b : List Byte) (d : Device) : Option (Nat × Nat) :=
  let kept := (d.geo.tri.filter (fun p => p.1 < first || first + n ≤ p.1)).map (fun p => (p.1, triCorners d p.2))
  let new := ((entries 96 n b).map (triRule d)).zipIdx.map (fun p => (first + p.2, p.1))
  (kept ++ new).foldl (fun a p =>
    if p.2 = 0 then a else match a with | some q => if p.1 < q.1 then some p else a | none => some p) none

def triApply (first n : Nat) (b : List Byte) (d : Device) : Device :=
  { d with geo := { d.geo with
    tri := msets {} d.geo.tri ((entries 96 n b).zipIdx.map (fun p => (first + p.2, triEntry p.1))) } }

/-! ## Direction gains (R66) and DIRECT values (R81) -/

/-- A gain field of R60 between 0 and 15.849: 1 the field, 2 the range. -/
def gainRule (x : List Byte) : Nat :=
  if !f36Ok x 0 then 1 else if flt (f36At x 0) 0 || flt gainMax (f36At x 0) then 2 else 0

def dirApply (col : Nat) (b : List Byte) (d : Device) : Device :=
  { d with geo := { d.geo with
    dirtab := msets 0 d.geo.dirtab ((entries 8 4096 b).zipIdx.map (fun p => (64 * p.2 + col, f36At p.1 0))) } }

/-- The values of an object's outputs, each record of the DIRECT area written whole (R60, R81). -/
def directApply (o : Nat) (b : List Byte) (d : Device) : Device :=
  let d := wipePads ((cfg d).directBase + 16 * nOut d * o) (16 * nOut d) d
  { d with geo := { d.geo with
    direct := msets (0, 0) d.geo.direct
      ((entries 16 (nOut d) b).zipIdx.map (fun p => (512 * o + p.2, (f36At p.1 0, fld p.1 8 4)))) } }

/-! ## Coefficient sets (R154, R291) -/

def secEntry (x : List Byte) : Biq :=
  { b0 := f36At x 0, b1 := f36At x 8, b2 := f36At x 16, a1 := f36At x 24, a2 := f36At x 32 }

/-- |x| ≥ y. -/
def magGe (x : F36) (y : Dy) : Bool := dyLe y ⟨(toDy x).m.natAbs, (toDy x).e⟩

/-- The rule that a section breaks: 1, 3, 4 of R154. -/
def secRule (x : List Byte) : Nat :=
  let s := secEntry x
  if !([0, 8, 16, 24, 32].all (f36Ok x)) then 1
  else if [s.b0, s.b1, s.b2, s.a1, s.a2].any (fun v => magGe v (dyInt 256)) then 3
  else if magGe s.a2 (dyInt 1) || magGe s.a1 (dyAdd (dyInt 1) (toDy s.a2)) then 4
  else 0

/-- The rule that a tap breaks: 1, 5. -/
def tapRule (x : List Byte) : Nat :=
  if !f36Ok x 0 then 1 else if magGe (f36At x 0) (dyInt 16) && !feq (fabs (f36At x 0)) (fint 16) then 5 else 0

/-- KIND that a block takes (R291). (log 74: DEDUCED, unsafe.) -/
def blockKind (block : Nat) : Nat := if block = 2 then 2 else if block = 3 || block = 6 then 3 else 1

/-- The range of COUNT, or of LEN for KIND 3, that a block of an element allows. -/
def blockRange (d : Device) (block n : Nat) : Nat × Nat :=
  let s := outStat (cfg d) n
  match block with
  | 1 => (0, s.biqMax) | 2 => (0, s.xoMax) | 3 => (1, s.convMax) | 4 => (1, 1) | 5 => (2, 2) | _ => (63, 63)

/-- A set's check for the elements it goes to: first bad item and rule (R154). -/
def coefCheck (d : Device) (block : Nat) (ms : List Nat) (b : List Byte) : Option (Nat × Nat) :=
  let kind := fld b 0 1
  let count := fld b 2 2
  let len := fld b 4 4
  let n := if kind = 3 then len else count
  let size := if kind = 3 then 8 * len else 40 * count
  if kind ≠ blockKind block then some (0, 6)
  else if (if kind = 3 then count else len) ≠ 0 || 64 + size > b.length
      || ms.any (fun m => !between (blockRange d block m).1 (blockRange d block m).2 n) then some (0, 2)
  else if kind = 3 then firstRule 0 ((entries 8 n (b.drop 64)).map tapRule)
  else firstRule 0 ((entries 40 n (b.drop 64)).map secRule)

/-- The block that an output lacks (R173). -/
def blockLacks (d : Device) (block n : Nat) : Bool :=
  let s := outStat (cfg d) n
  (block = 1 && s.biqMax = 0) || (block = 2 && s.xoMax = 0) || (block = 3 && s.convMax = 0)

/-- A checked set enters the staging bank of a block of one element (R161). -/
def coefStage (block n : Nat) (b : List Byte) (d : Device) : Device :=
  let secs := (entries 40 (fld b 2 2) (b.drop 64)).map secEntry
  let taps := (entries 8 (fld b 4 4) (b.drop 64)).map (fun x => f36At x 0)
  match block with
  | 1 => modOut n (fun o => { o with stgBiq := secs }) d
  | 2 => modOut n (fun o => { o with stgXo := secs }) d
  | 3 => modOut n (fun o => { o with stgTaps := taps }) d
  | 4 => modPch n (fun p => { p with excStg := secs.headD {} }) d
  | 5 => { d with inp := { d.inp with wfsStg := some (nth {} secs 0, nth {} secs 1) } }
  | _ => modDec n (fun c => { c with firStg := taps }) d

/-- The banks of a block of one element swap (R161): the staged set is active, the one that was active is staged. A decimation
chain, which is stopped, takes its staged set (R291). -/
def coefSwap (block n : Nat) (d : Device) : Device :=
  match block with
  | 1 => modOut n (fun o => { o with
      stgBiq := o.app.biq, app := { o.app with biq := o.stgBiq, biqBank := !o.app.biqBank } }) d
  | 2 => modOut n (fun o => { o with stgXo := o.app.xo, app := { o.app with xo := o.stgXo, xoBank := !o.app.xoBank } }) d
  | 3 => modOut n (fun o => { o with
      stgTaps := o.app.taps, app := { o.app with taps := o.stgTaps, convBank := !o.app.convBank } }) d
  | 4 => modPchP n (fun c => { c with exc := (pchAt d n).excStg })
      (modPch n (fun p => { p with excStg := (p.cfgs.headD {}).exc }) d)
  | 5 => { d with inp := { d.inp with
      wfsApp := { bank := !d.inp.wfsApp.bank, coef := d.inp.wfsStg }, wfsStg := d.inp.wfsApp.coef } }
  | _ => modDec n (fun c => { c with fir := some c.firStg }) d

/-! ## Object motion (R51 to R53, R286) -/

/-- A record of a batch is refused by R51. -/
def recordOk (d : Device) (r : List Byte) : Bool :=
  match recMotion (nObj d) r with
  | none => false
  | some m => lawAllowed d (recObj r) m.1.law

/-- An object takes a motion state from a command (R53). -/
def moveObj (o : Nat) (m : Motion) (clamped : Bool) (d : Device) : Device :=
  modObj o (fun x => { x with motion := takeMotion x.motion m, recClamp := x.recClamp || clamped }) d

/-- The motion state that the fields of a descriptor leave (R286), and whether its gain was clamped; none where R51
refuses it. `a` are the 32 bytes of ARGS. -/
def argMotion (d : Device) (o : Nat) (a : List Byte) : Option (Motion × Bool) :=
  let sel := fld a 2 1
  let m := (objAt d o).motion
  let law := if bit sel 0 then (lawOf (fld a 3 1)).filter (lawAllowed d o) else some m.law
  let g := gainHeld (f36At a 0x18)
  match law with
  | none => none
  | some l =>
    if bit sel 4 && !f36Ok a 0x18 then none
    else
      let m := { m with law := l }
      let m := if bit sel 1 then { m with mute := bit (fld a 4 1) 0, jump := bit (fld a 4 1) 1 } else m
      let m := if bit sel 2 then { m with x := sfld a 5 3, y := sfld a 8 3, z := sfld a 0xB 3 } else m
      let m := if bit sel 3 then { m with size := fld a 0xE 3 } else m
      let m := if bit sel 4 then { m with gain := g.1 } else m
      -- a change of law sets JUMP, judged here against the held law
      some (if m.law = (objAt d o).motion.law then m else { m with jump := true }, bit sel 4 && g.2)

/-- OBJ_MOTION with its fields in ARGS, at AF: status, device. (log 72: DEDUCED, unsafe.) -/
def motionOne (a : List Byte) (d : Device) : Device × Nat × List Nat :=
  let o := fld a 0 2
  if (objAt d o).params.mdSrc ≠ .command then (ignoreRecord o d, 0x010E, [])
  else
    match argMotion d o a with
    | none => (badRecord 0 o d, 0, [1])
    | some (m, c) => (moveObj o m c d, 0, [0])

/-- OBJ_MOTION with records at ADDR, at AF. A record of an object whose source is another completes the whole command
with WRONG_SOURCE. -/
def motionBatch (b : List Byte) (d : Device) : Device × Nat × List Nat :=
  let rs := entries 32 (b.length / 32) b
  let wrong := (rs.filter (fun r => recObj r < nObj d && (objAt d (recObj r)).params.mdSrc ≠ .command)).map recObj
  if !wrong.isEmpty then (forAll wrong ignoreRecord d, 0x010E, [])
  else
    let bad := rs.filter (fun r => !recordOk d r)
    let d := forAll rs (fun r d =>
      match recMotion (nObj d) r with
      | some (m, c) => if lawAllowed d (recObj r) m.law then moveObj (recObj r) m c d else badRecord 0 (recObj r) d
      | none => badRecord 0 (recObj r) d) d
    (d, 0, [bad.length])

end Sys2Proof.Machine
end

