-- ==== Sys2Proof/Machine/Xbar.lean ====
section
/-! DEFINITION. The crossbar's front (R369 to R376, R379): targets, the arrival of requests, arbitration, the reset of a
master, and the debug port's commands (R516). What a transaction does at its target is in `XbarDone`. -/
namespace Sys2Proof.Machine

/-! ## Masters and targets (R369 to R371) -/

/-- The default target. -/
def defaultTarget : Nat := 24

/-- Masters that may reach DRAM (R371); a cluster only for a BACKGROUND task. -/
def dramMaster (r : XReq) : Bool :=
  if r.master < 8 then r.background else [9, 10, 11, 12, 13, 14, 17].contains r.master

/-- Shared-store port of a master, as a target (R369). -/
def storePort (m : Nat) : Nat :=
  if m < 4 then 2 else if m < 8 then 3 else if m = 8 || m = 9 || m = 13 then 4 else 5

/-- The target that a request goes to, by the address of its first word (R370, R371). (log 62: DEDUCED, unsafe.) -/
def targetOf (d : Device) (r : XReq) : Nat :=
  let a := r.addr
  let m := r.master
  if r.host then (if [12, 13, 14, 17].contains m then 23 else defaultTarget)
  else if a < 0x100000 || (0x4000000 ≤ a && a < 0x4300000) then storePort m
  else if 0x1000000000 ≤ a && a < 0x1100000000 then
    if !dramMaster r then defaultTarget
    else match dramMap (cfg d) (8 * (a - 0x1000000000)) with
      | some (ch, _) => ch
      | none => defaultTarget
  else if 0x10000000 ≤ a && a < 0x10800000 then
    if r.write && (m = 13 || m = 17) then 6 + (a - 0x10000000) / 0x80000 else defaultTarget
  else if 0x20000000 ≤ a && a < 0x20020000 then
    if m = 12 || m = 17 then 22 else defaultTarget
  else defaultTarget

/-- The master on which an idle target is parked (R370). -/
def parkedOn (t : Nat) : Option Nat :=
  if t = 0 || t = 1 then some 9
  else if t = 4 then some 8
  else if t = 5 then some 16
  else if 6 ≤ t && t ≤ 21 then some 13
  else if t = 22 || t = 23 then some 12
  else none

/-- QoS of a request (R369, R373): a cluster's by the class of its task, any other master's from the image. -/
def qosOf (d : Device) (r : XReq) : Nat :=
  let i := cfg d
  if r.master < 8 then (if r.background then i.qosBack else i.qosFrame) else nth 0 i.qos (r.master - 8)

/-- Shared-store ports 0 and 1 are cluster lanes: they are not arbitrated, and each cluster is served on its own
(R358, R370). -/
def isLane (t : Nat) : Bool := t = 2 || t = 3

/-- Where the transaction in service of a target (of a master's lane) is kept. -/
def serveKey (t m : Nat) : Nat := if isLane t then 32 + m else t

def serving (d : Device) (k : Nat) : Option XPending := mget none d.xbar.serving k
def waitingAt (d : Device) (t : Nat) : List XPending := mget [] d.xbar.waiting t

def setServing (k : Nat) (p : Option XPending) (d : Device) : Device :=
  { d with xbar := { d.xbar with serving := mset none d.xbar.serving k p } }

def setWaiting (t : Nat) (l : List XPending) (d : Device) : Device :=
  { d with xbar := { d.xbar with waiting := mset [] d.xbar.waiting t l } }

/-! ## Requests and grants (R373 to R376) -/

/-- Every request of a master in flight anywhere but at target `t`: waiting or in service.
(log 63: DEDUCED, unsafe.) -/
def inFlightElsewhere (d : Device) (m t : Nat) : List XPending :=
  let w := (d.xbar.waiting.filter (fun p => p.1 ≠ t)).flatMap (·.2)
  let s := (d.xbar.serving.filter (fun p => p.1 ≠ serveKey t m)).filterMap (·.2)
  (w ++ s).filter (fun p => p.req.master = m)

/-- The order guard holds a write while an earlier write of its master is in flight at another target (R376).
(log 63: DEDUCED, unsafe.) -/
def guardHolds (d : Device) (t : Nat) (p : XPending) : Bool :=
  p.req.write && (inFlightElsewhere d p.req.master t).any (fun q => q.req.write && decide (q.order < p.order))

/-- A request may be granted: the oldest of its master at the target, and not held. -/
def eligible (d : Device) (t : Nat) (p : XPending) : Bool :=
  !guardHolds d t p
    && (waitingAt d t).all (fun q => q.req.master ≠ p.req.master || decide (p.order ≤ q.order))

/-- Distance of a master in the round robin that starts after the one last granted (R374). -/
def roundRobin (last : Option Nat) (m : Nat) : Nat :=
  match last with
  | some l => (m + 18 - (l + 1) % 18) % 18
  | none => m

/-- The request that a free target grants (R374): the highest QoS, then the round robin at that QoS. -/
def choose (d : Device) (t : Nat) : Option XPending :=
  let rank := fun (p : XPending) => roundRobin (mget none d.xbar.lastGrant (16 * t + p.qos)) p.req.master
  ((waitingAt d t).filter (eligible d t)).foldl (fun b p => match b with
    | none => some p
    | some q => if q.qos < p.qos || (q.qos = p.qos && rank p < rank q) then some p else some q) none

/-- Grant a request: it leaves the waiting list and is in service. (log 116: DESIGN CHOICE, safe.) -/
def grant (t : Nat) (p : XPending) (d : Device) : Device :=
  let d := setWaiting t ((waitingAt d t).filter (fun q => q.order ≠ p.order)) d
  let d := setServing (serveKey t p.req.master) (some p) d
  { d with xbar := { d.xbar with lastGrant := mset none d.xbar.lastGrant (16 * t + p.qos) (some p.req.master) } }

/-- XBAR_GRANT: a free target grants; a lane takes the next transfer of each cluster that has none in service. -/
def xbarGrant (t : Nat) (d : Device) : Device :=
  if isLane t then
    forAll (waitingAt d t) (fun p d =>
      if eligible d t p && (serving d (serveKey t p.req.master)).isNone then grant t p d else d) d
  else if (serving d t).isSome then d
  else match choose d t with
    | some p => grant t p d
    | none => d

/-- XBAR_REQUEST: a request arrives at its target. A master in reset issues none (R379), and none leaves reset before the SRAM is
cleared (R357). An idle target grants the master
it is parked on at once (R375), and a lane that is free serves at once. -/
def xbarRequest (r : XReq) (d : Device) : Device :=
  if r.master ≥ 18 || r.words = 0 || decide (r.words > 512) || !d.pwr.sramClear || d.xbar.resetting.contains r.master then d
  else
    let t := targetOf d r
    let p : XPending := { req := r, qos := qosOf d r, order := d.xbar.count }
    let first := (waitingAt d t).isEmpty
    let d := { d with xbar := { d.xbar with count := d.xbar.count + 1 } }
    let d := setWaiting t (waitingAt d t ++ [p]) d
    let d := when (t < 2) (selfRefWake t) d
    if isLane t || (first && parkedOn t = some r.master) then xbarGrant t d else d

/-! ## Reset of a master (R379) -/

/-- Transactions of a master in service anywhere. -/
def inService (d : Device) (m : Nat) : Bool :=
  d.xbar.serving.any (fun p => match p.2 with | some q => q.req.master = m | none => false)

/-- The reset of a master: requests not yet granted are withdrawn; it stays in reset while a burst of it is in
service. (log 67: DEDUCED, unsafe.) -/
def resetMaster (m : Nat) (d : Device) : Device :=
  let d := { d with xbar := { d.xbar with
    waiting := mmap [] (fun _ (l : List XPending) => l.filter (fun p => p.req.master ≠ m)) d.xbar.waiting
    held := d.xbar.held.filter (fun h => h.2.1.req.master ≠ m) } }
  if inService d m && !d.xbar.resetting.contains m then
    { d with xbar := { d.xbar with resetting := d.xbar.resetting ++ [m] } }
  else d

/-- MASTER_RESET_RELEASE: every granted burst of the master has completed. (log 67: DEDUCED, unsafe.) -/
def masterRelease (m : Nat) (d : Device) : Device :=
  if inService d m then d
  else { d with xbar := { d.xbar with resetting := d.xbar.resetting.filter (· ≠ m) } }

/-! ## The debug port (R516) -/

/-- A debug command: discarded while EN is clear or a beat is under way, else one beat of one word by master 17. -/
def dbgCmd (write : Bool) (d : Device) : Device :=
  if !(regAt d 0x1000 0).getLsbD 0 || d.regs.dbgBusy then { d with pwr := { d.pwr with accErr := true } }
  else
    let a := d.regs.dbgAddr.toNat
    let data : Word72 := BitVec.ofNat 72
      ((regAt d 0x100C 0).toNat + (regAt d 0x1010 0).toNat * pow2 32 + (regAt d 0x1014 0).toNat % 256 * pow2 64)
    -- an address beyond 40 bits is a host address for the PCI Express path
    let r : XReq :=
      { master := 17, host := decide (a ≥ pow2 40), addr := a, write := write, words := 1, data := [data]
        strobes := [BitVec.ofNat 9 (regAt d 0x1018 0x1FF).toNat] }
    let d := { d with regs := { d.regs with dbgBusy := true } }
    xbarRequest r d

/-! ## Commands -/

def execXbarRequest (r : XReq) (s : State) : Host.Outcome State Fault Refusal := act (fun _ d => xbarRequest r d) s
def execXbarGrant (target : Nat) (s : State) : Host.Outcome State Fault Refusal :=
  act (fun _ d => when (target < 25) (xbarGrant target) d) s
def execMasterResetRelease (master : Nat) (s : State) : Host.Outcome State Fault Refusal :=
  act (fun _ d => masterRelease master d) s
def execDbgRead (s : State) : Host.Outcome State Fault Refusal := hostAct (fun _ d => dbgCmd false d) s
def execDbgWrite (s : State) : Host.Outcome State Fault Refusal := hostAct (fun _ d => dbgCmd true d) s

end Sys2Proof.Machine
end

