-- ==== Sys2Proof/Machine/Apply.lean ====
section
/-! DEFINITION. What each command does at its decided AF (R27, R29, R257, R280 to R292, R496): `applyCmd`, and the way
the device applies an accepted command and completes it, `applyDue`. -/
namespace Sys2Proof.Machine

/-- A field of ARGS by its descriptor offset (R263, R280). -/
def argN (c : CmdDesc) (off len : Nat) : Nat := fld c.args (off - 0x20) len

/-- What a command did at its AF: the device, the status (none: the command completes later), DETAIL words, members
clamped and skipped. -/
structure ARes where
  dev : Device
  status : Option Nat := some 0
  detail : List Nat := []
  clamped : Nat := 0
  skipped : Nat := 0
deriving DecidableEq, Repr

/-- A refusal: nothing changes. -/
def aRefuse (code : Nat) (d : Device) : ARes := { dev := d, status := some code }
/-- The command applied. -/
def aOk (d : Device) : ARes := { dev := d }
/-- The command completes later, by what it began. -/
def aLater (d : Device) : ARes := { dev := d, status := none }

/-- Rendering runs and has not been stopped by a RENDER_STOP (R284). -/
def rendersNow (d : Device) : Bool := d.pwr.rendering && d.pwr.stopAt.isNone

/-! ## Function IDs (R14) -/

inductive Func where
  | ring | port (p : Nat) | ain (r : Nat) | aout (t : Nat) | dec (n : Nat) | pch (n : Nat) | cl (k : Nat)
  | geo | xpe | cve | stream | disp | rail (g : Nat)
deriving DecidableEq, Repr

/-- The function that an ID names, none where it is reserved. -/
def funcOf (v : Nat) : Option Func :=
  if v = 0 then some .ring
  else if between 1 4 v then some (.port (v - 1))
  else if between 0x08 0x0F v then some (.ain (v - 0x08))
  else if between 0x10 0x17 v then some (.aout (v - 0x10))
  else if between 0x20 0x47 v then some (.dec (v - 0x20))
  else if between 0x50 0x5F v then some (.pch (v - 0x50))
  else if between 0x60 0x67 v then some (.cl (v - 0x60))
  else if v = 0x70 then some .geo
  else if v = 0x71 then some .xpe
  else if v = 0x72 then some .cve
  else if v = 0x73 then some .stream
  else if v = 0x74 then some .disp
  else if between 0x75 0x78 v then some (.rail (v - 0x75))
  else none

/-- The function exists in the device's role. -/
def funcHere (spoke : Bool) : Func → Bool
  | .pch _ => spoke
  | .rail _ => spoke
  | _ => true

/-! ## Rings (R256, R257) -/

/-- A ring-table entry as it starts a ring, with DIDX 0 and the latest fetched HIDX where it fits. -/
def ringParse (r : Nat) (old : Ring) (b : List Byte) : Ring :=
  let size := fld b 8 4
  let given := r = 1 || r = 2 || r = 3 || r = 5
  { run := true, base := fld b 0 8, size := size, irq := bit (fld b 0xC 1) 1, vec := fld b 0xD 1 % 32
    modCount := max 1 (fld b 0xE 2), modFrames := min 6000 (fld b 0x10 2), arg := sub b 0x18 8
    hidx := if given || old.hidx.toNat > size then 0 else old.hidx
    idxBad := old.idxBad, bufBad := old.bufBad }

/-- Telemetry record length in descriptors (R275). -/
def telemLen (d : Device) : Nat := 2 + nOut d + 2 * (pchsConfigured d).length

/-- CH of every running host audio ring but `r`, in all (R383). -/
def haTotal (d : Device) (r : Nat) : Nat :=
  ((d.ring.rings.filter (fun p => between 16 47 p.1 && p.1 ≠ r && p.2.run)).map (fun p => ringCh p.2)).sum

/-- The entry is refused with RING_BAD (R257, R383). -/
def ringBad (d : Device) (r : Nat) (b : List Byte) : Bool :=
  let size := fld b 8 4
  let audio := between 16 47 r
  let ch := fld b 0x18 1
  let w := fld b 0x19 1
  fld b 0 8 % 64 ≠ 0 || !between 16 65536 size || size &&& (size - 1) ≠ 0
    || (r = 5 && decide (size < telemLen d))
    || (audio && (!between 1 64 ch || (w ≠ 3 && w ≠ 4) || decide (haTotal d r + ch > (cfg d).haChMax)))

/-- A value of the entry of a ring that starts is taken as a limit, and the result says so (R256, R125): TEL_INTERVAL,
HOLD_MAX or REVIVE_FRAMES. -/
def ringClamps (r : Nat) (b : List Byte) : Bool :=
  let tel := fld b 0x18 2
  bit (fld b 0xC 1) 0
    && ((r = 5 && tel ≠ 0 && !between 6 6000 tel)
      || (between 16 31 r && (decide (fld b 0x1A 1 > 8) || !between 1 600 (fld b 0x1C 2))))

/-- What a ring leaves behind when it stops or restarts: a transmit queue is flushed (R279), an input ring's held
buffers and channels go, an output ring's gap and the telemetry count start anew. -/
def ringDrop (r : Nat) (e : Env) (d : Device) : Device :=
  if 96 ≤ r then
    let p := (r - 96) / 8
    let q := (r - 96) % 8
    let inFlight := match (portAt d p).txNow with | some (_, some f) => f.queue = q | _ => false
    ntxFlushQueue p q e (when inFlight (txDeparture p 0 e) d)
  else if between 16 31 r then { d with ring := { d.ring with ain := mset {} d.ring.ain (r - 16) {} } }
  else if between 32 47 r then { d with ring := { d.ring with aoutGap := mset 0 d.ring.aoutGap (r - 32) 0 } }
  else if r = 5 then { d with ring := { d.ring with telLast := none, telSkipped := 0, telDue := false } }
  else d

/-- A ring stops. (log 81: DEDUCED, unsafe.) -/
def ringStop (r : Nat) (e : Env) (d : Device) : Device :=
  modRing r (fun q => { hidx := q.hidx, idxBad := q.idxBad, bufBad := q.bufBad }) (ringDrop r e d)

/-- A ring takes its entry `b`: the refusal code, 0 for none. -/
def ringTake (r : Nat) (b : List Byte) (e : Env) (d : Device) : Nat × Device :=
  if !bit (fld b 0xC 1) 0 then (0, ringStop r e d)
  else if ringBad d r b then (0x0115, d)
  else (0, modRing r (fun q => ringParse r q b) (ringDrop r e d))

/-- The entry of a ring in the ring table, none where its read fails. -/
def ringEntry (r : Nat) (e : Env) (d : Device) : Option (List Byte) :=
  dmaRead e d (d.ring.tblBase.toNat + 64 * r) 64

/-- Rings 0 to 3 start from their entries (R257): at RING_GO, and at a function reset of the ring engine. A refused entry
or a failed read sets RING_ERR and leaves the ring stopped. -/
def ringsStart (e : Env) (d : Device) : Device :=
  forAll [0, 1, 2, 3] (fun (r : Nat) (d : Device) =>
    let fail := fun (d : Device) => ringStop r e { d with pwr := { d.pwr with ringErr := true } }
    match ringEntry r e d with
    | none => fail d
    | some b =>
      let x := ringTake r b e d
      if x.1 = 0 then x.2 else fail d) d

/-! ## Start and end of rendering (R44, R223, R284) -/

/-- An object at the start of rendering: no history. -/
def objStart (x : ObjState) : ObjState :=
  { x with
    route := { app := x.route.app, live := x.route.app, prev := x.route.app }
    bulkLive := x.params.objBulk, bulkPrev := x.params.objBulk, winB := 0, winHD := 0, winOn := false, pendJump := false, gap := none
    bulkDepth := 0, bulkLine := [], vbapWin := [none, none, none, none, none], geoFlags := 0, geoPrev := 0
    xpeFlags := 0, xpePrev := 0, wfs0 := {}, wfs1 := {}, wfsOn := false, reemit := [], written := false }

/-- Rendering starts at frame S = FN, without history (R44, R67, R104, R125, R131, R212, R223, R308). -/
def startRender (e : Env) (d : Device) : Device :=
  let c := budgetCheck { checkIn d with homes := [], places := [] }
  let d := startDispatch c.asg d
  let d := { d with img := { d.img with budget := c.words, margins := c.margins.map (uext 32) } }
  let d := { d with pwr := { d.pwr with rendering := true, startFn := e.fn, started := false, stopAt := none } }
  let d := { d with geo := { d.geo with
    temp := holdTemp d.geo.temp, running := false, objs := mmap {} (fun _ (x : ObjState) => objStart x) d.geo.objs } }
  let d := xpeRestart e.fn { d with xp := { d.xp with live := d.xp.app, partials := [], started := [], resetAt := none } }
  let d := { d with chn := { d.chn with
    outs := mmap {} (fun _ (o : OutState) => chainStart o) d.chn.outs, cveReset := none, launched := none } }
  let d := { d with inp := { d.inp with
    rxLive := d.inp.rx, rxPrev := d.inp.rx, wfsLive := d.inp.wfsApp, wfsPrev := d.inp.wfsApp
    ownerFrames := [], localPrev := [], nc := [], streamReset := none } }
  let d := { d with pair := { d.pair with
    selected := 0, supplier := [], own := [], retained := [], rerun := none, found := [], foundNext := [] } }
  let d := startLines (forAll (List.range 8) (fun r d => bridgeLoss r e d) d)
  if d.pwr.spoke then forAll (List.range 4) railReset (protStart d) else d

/-- Complete commands unapplied with a status; a mirrored one's status goes to the peer as any other (R232). The core of a dropped CORE_ONLINE is offline
again. -/
def dropAll (status : Nat) (l : List Pend) (e : Env) (d : Device) : Device :=
  forAll l (fun p d =>
    let core := argN p.d 0x20 1
    let back := p.opcode = 0x0007 && (cslotAt d core).st = .joining
    when back (setCoreSt core .offline 0 e) (finishCmd p status [] none e d)) d

/-- Complete every queued command whose AF is later than FN, unapplied, with a status (R284, R250, R19). -/
def dropLater (status : Nat) (e : Env) (d : Device) : Device :=
  dropAll status (d.cmd.queue.filter (fun p => later p.af e.fn || p.members.any (fun m => !m.applied && later m.af e.fn)))
    e d

/-- RENDER_STOP at its AF: output frame AF fades, later commands are dropped (R284). (log 45: DEDUCED, unsafe.) -/
def stopRender (e : Env) (d : Device) : Device :=
  dropLater 5 e { d with pwr := { d.pwr with stopAt := some e.fn } }

/-- A standby promotes itself (R247, R248). -/
def promote (e : Env) (d : Device) : Device :=
  let d := { d with pair := { d.pair with
    epoch := d.pair.peerEpoch + 1, peerUnfit := false, unacked := [], handover := none, rerun := none
    ownDone := [], peerDone := [] } }
  let d := setPairSt .active 0 e d
  raise 0x1006 0 (leBytes 4 d.pair.appliedRidx.toNat ++ leBytes 2 (d.pair.applied.toNat % 65536)) e d

/-! ## Function resets (R496) -/

/-- GEO: T_CUR := T_SET, winners and flag words cleared. -/
def geoReset (d : Device) : Device :=
  { d with geo := { d.geo with
    temp := holdTemp d.geo.temp
    objs := mmap {} (fun _ (x : ObjState) =>
      { x with vbapWin := [none, none, none, none, none], geoFlags := 0, geoPrev := 0 }) d.geo.objs } }

/-- The crossbar master that a function reset resets (R379). -/
def funcMaster : Func → Option Nat
  | .cl k => some k
  | .xpe => some 8
  | .cve => some 9
  | .geo => some 10
  | .stream => some 11
  | .ring => some 12
  | .disp => some 16
  | _ => none

/-- A reset of the CVE restarts the staging of every FIR load that it interrupts (R165): the load is staged by the bound of R164
counted anew from this tick. -/
def restartFir (e : Env) (d : Device) : Device :=
  let hit := fun (p : Pend) => p.opcode = 0x0202 && argN p.d 0x20 1 = 3 && !p.staged
  { d with cmd := { d.cmd with queue := d.cmd.queue.map (fun p =>
    if !hit p then p
    else
      let bounds := p.members.map (fun m => 3 + firFrames (cfg d) m.idx p.d.len.toNat 0)
      { p with stageBy := e.fn + BitVec.ofNat 32 (bounds.foldl max 0)
               cveWork := (p.members.map (fun m => firWork (cfg d) m.idx)).sum }) } }

/-- A function reset at its AF: whether the command completes now, and whether its completion follows a frame later. -/
def applyReset (f : Func) (uid : BitVec 32) (e : Env) (d : Device) : ARes :=
  let next := fun (d : Device) => aLater (modPend uid (fun p => { p with doneAt := some (e.fn + 1) }) d)
  let d := match funcMaster f with | some m => resetMaster m d | none => d
  match f with
  | .ring => aOk (ringsStart e d)
  | .port p => aLater (portReset p uid e d)
  | .ain r => aOk (ainReset r e d)
  | .aout t => aLater (modAout t (fun p => { p with reset := 1, resetRidx := some uid, resetAt := e.fn }) d)
  | .dec n => if chainBusy d n then aRefuse 0x0118 d else aLater (decReset n uid e d)
  | .pch n => aLater (pchReset n uid e d)
  | .cl k =>
    let d := resetCluster k uid e d
    if d.disp.resets.any (fun p => p.2 = uid) then aLater d else aOk d
  | .geo => aOk (geoReset d)
  | .xpe => if d.pwr.rendering then next { d with xp := { d.xp with resetAt := some e.fn } } else aOk d
  | .cve =>
    let d := restartFir e d
    if d.pwr.rendering then next { d with chn := { d.chn with cveReset := some e.fn } } else aOk (clearHist d)
  | .stream => next { d with inp := { d.inp with streamReset := some e.fn } }
  | .disp => next (resetDispatcher e d)
  | .rail g => aOk (railReset g d)

/-! ## Sources and destinations (R119, R120, R136) -/

/-- A source ID that a route may name. -/
def sourceOk (d : Device) (s : Nat) : Bool :=
  let i := s % 4096
  let mapped := (rxMaps d.inp.rx).any (fun m => m.key % 65536 = s)
  match s / 4096 with
  | 0 => s = 0
  | 1 => decide (i < 2048) && mapped
  | 2 => decide (i < 16)
  | 3 => decide (i < 40)
  | 4 => decide (i < 1024) && (ringAt d (16 + i / 64)).run && decide (i % 64 < ringCh (ringAt d (16 + i / 64)))
  | 5 => d.pwr.spoke && decide (i < 1024) && mapped
  | 6 => d.pwr.spoke && decide (i < 512) && mapped
  | _ => false

/-- The route state of a destination, none where there is no such destination. -/
def destRoute (d : Device) (dest : Nat) : Option RouteState :=
  if dest < nObj d then some (objAt d dest).route
  else if 0x8000 ≤ dest && dest < 0x8000 + nOut d then some (outAt d (dest - 0x8000)).route
  else none

/-- A change of a destination's applied route. -/
def setRoute (dest : Nat) (c : RouteCfg) (d : Device) : Device :=
  if dest < 0x8000 then modObj dest (fun x => { x with route := { x.route with app := c } }) d
  else modOut (dest - 0x8000) (fun o => { o with route := { o.route with app := c } }) d

/-- ROUTE at its AF (R136, R137); its source was judged at acceptance, and stays whatever became of it since (R120). -/
def applyRoute (c : CmdDesc) (d : Device) : ARes :=
  let dest := argN c 0x20 2
  let sel := argN c 0x24 1
  let g : F36 := BitVec.ofNat 36 (argN c 0x28 8)
  match destRoute d dest with
  | none => aRefuse 0x010D d
  | some r =>
    if bit sel 1 && flt g 0 then aRefuse stRange d
    else
      let xf := argN c 0x26 2
      let gHigh := bit sel 1 && flt gainMax g
      let new : RouteCfg :=
        { src := if bit sel 0 then argN c 0x22 2 else r.app.src
          gain := if bit sel 1 then (if gHigh then gainMax else fcanon g) else r.app.gain
          xf := if bit sel 2 then max 1 (min 600 xf) else r.app.xf }
      { dev := setRoute dest new d, clamped := if gHigh || (bit sel 2 && !between 1 600 xf) then 1 else 0 }

/-! ## Streams (R292, R415, R425, R426) -/

/-- CH of the active receive and transmit slots. -/
def rxTotal (m : SMap RxSlot) : Nat := ((m.filter (fun p => p.2.format ≠ 0)).map (fun p => p.2.ch)).sum
def txTotal (m : SMap TxSlot) : Nat := ((m.filter (fun p => p.2.format ≠ 0)).map (fun p => p.2.ch)).sum

/-- STREAM_RX at its AF. -/
def applyStreamRx (c : CmdDesc) (e : Env) (d : Device) : ARes :=
  let slot := argN c 0x20 1
  let old := slotAt d slot
  let fmt := argN c 0x21 1
  let new : RxSlot :=
    if fmt = 0 then { old with format := 0 }
    else { old with format := fmt, paths := argN c 0x22 1, hub := argN c 0x23 1, ch := argN c 0x24 2
                    base := argN c 0x26 2, streamId := BitVec.ofNat 64 (argN c 0x28 8)
                    rtpOff := BitVec.ofNat 32 (argN c 0x30 4) }
  let rx := mset {} d.inp.rx slot new
  let keys := (rxMaps rx).map (·.key)
  if fmt ≠ 0 && ((rxMaps (mset {} [] slot new)).any (fun m => decide (keys.count m.key > 1))) then aRefuse 0x010D d
  else if rxTotal rx > 4096 then aRefuse stRange d
  else
    let d := { d with inp := { d.inp with rx := rx } }
    if old.format = new.format && old.streamId = new.streamId && old.hub = new.hub then aOk d
    else
      -- another stream: its sequence state starts anew, samples of the old one from AF on go
      let keep : List RxFrame → List RxFrame := fun l => l.filter (fun f => earlier f.frame e.fn)
      aOk { d with inp := { d.inp with
        rxSeq := mset {} d.inp.rxSeq slot {}
        bufs := mmap {} (fun k b => if k / 64 = slot then { p0 := keep b.p0, p1 := keep b.p1 : RxBuf } else b) d.inp.bufs } }

/-- STREAM_TX at its AF. -/
def applyStreamTx (c : CmdDesc) (d : Device) : ARes :=
  let slot := argN c 0x20 1
  let old := mget {} d.eth.tx slot
  let fmt := argN c 0x21 1
  let new : TxSlot :=
    if fmt = 0 then { old with format := 0 }
    else { format := fmt, paths := argN c 0x22 1, ch := argN c 0x24 2, first := argN c 0x26 2
           streamId := BitVec.ofNat 64 (argN c 0x28 8), dest := BitVec.ofNat 48 (argN c 0x30 6)
           vlan := BitVec.ofNat 16 (argN c 0x36 2) }
  let tx := mset {} d.eth.tx slot new
  if txTotal tx > 2048 || !(loadFits d 0 tx && loadFits d 1 tx) then aRefuse stRange d
  else aOk { d with eth := { d.eth with tx := tx } }

/-- Channels of the ring or stream that a sink names (R292, R545): 64 while it is not set up. -/
def sinkCount (d : Device) (kind sink : Nat) : Nat :=
  if kind = 2 then (if (ringAt d sink).run then ringCh (ringAt d sink) else 64)
  else
    let s := mget {} d.eth.tx sink
    if s.format = 0 then 64 else s.ch

/-- SINK_SET at its AF. -/
def applySink (c : CmdDesc) (d : Device) : ARes :=
  let a : SinkAsg := { out := argN c 0x20 2, kind := argN c 0x22 1, sink := argN c 0x24 2, chan := argN c 0x26 2 }
  let add := argN c 0x23 1 = 1
  let r := sinkErr d (nOut d) (sinkCount d a.kind a.sink) d.chn.sinks add a
  if r ≠ 0 then aRefuse r d
  else aOk { d with chn := { d.chn with sinks := sinkApply add a d.chn.sinks } }

/-! ## Tables and coefficients -/

/-- A table commit: its first bad entry refuses it with TABLE_BAD (R284, R295). -/
def applyTable (bad : Option (Nat × Nat)) (f : Device → Device) (d : Device) : ARes :=
  match bad with
  | some x => { dev := d, status := some 0x0112, detail := [x.1, x.2] }
  | none => aOk (f d)

/-- Members that a COEF_LOAD goes to (R172, R291). (log 74: DEDUCED, unsafe.) -/
def coefMembers (d : Device) (block target index : Nat) : List Nat :=
  targetMembers d (if block = 4 then 3 else if block = 6 then 8 else 2) target index

/-- COEF_LOAD at its AF for the members due (R154, R161, R173, R291): a set that the check refused as it arrived leaves both
banks unchanged. -/
def applyCoef (p : Pend) (due : List Nat) (af : BitVec 32) (d : Device) : ARes :=
  let block := argN p.d 0x20 1
  let takers := due.filter (fun n => !blockLacks d block n)
  if block = 6 && due.any (chainBusy d) then aRefuse 0x0118 d
  else if block = 6 && due.any (chainRuns d) then aRefuse 0x0114 d
  else
    match p.bad with
    | some x => { dev := d, status := some 0x0111, detail := [x.1, x.2] }
    | none =>
      let d := forAll takers (coefSwap block) d
      { dev := { d with chn := { d.chn with swapped := d.chn.swapped ++ takers.map (fun n => (block, n, af)) } }
        skipped := due.length - takers.length }

/-! ## Groups and parameters -/

/-- GROUP_SET at its AF (R172). -/
def applyGroup (p : Pend) (d : Device) : ARes :=
  let g := argN p.d 0x20 1
  let mask : BitVec 512 := BitVec.ofNat 512 (leNat (p.operand.getD []))
  let old := mget 0 d.chn.groups g
  let new := match argN p.d 0x21 1 with | 0 => mask | 1 => old ||| mask | _ => old &&& ~~~mask
  aOk { d with chn := { d.chn with groups := mset 0 d.chn.groups g new } }

/-- PARAM_WRITE at its AF for the members due (R173, R174, R287 to R290). (log 139: DEDUCED, unsafe.) -/
def applyParam (c : CmdDesc) (due : Option (List Nat)) (af : BitVec 32) (d : Device) : ARes :=
  let space := argN c 0x20 1
  let pnum := argN c 0x21 1
  let target := argN c 0x22 1
  let ms := due.getD (targetMembers d space target (argN c 0x24 2))
  let r := writeMembers space pnum (argN c 0x23 1 = 1) (argN c 0x28 8) ms d
  if r.status ≠ 0 then aRefuse r.status d
  else if target = 0 && r.skipped ≠ 0 then aRefuse stRange d
  else
    let words := if target = 0 then [] else [ms.length, r.clamped, r.skipped, af.toNat, af.toNat]
    if !paramBudget space pnum then { dev := r.dev, detail := words, clamped := r.clamped, skipped := r.skipped }
    else
      let k := budgetCheck (checkIn r.dev)
      match k.fail with
      | some f => { dev := d, status := some 0x0107, detail := failDetail f }
      | none =>
        let d := r.dev
        let tasks := buildTable (cfg d) d.pwr.spoke (fun n => (outAt d n).app.busAlign)
        { dev := { d with img := { d.img with budget := k.words, margins := k.margins.map (uext 32) }
                          disp := { d.disp with tasks := tasks } }
          detail := if target = 0 then k.margins.map (uext 32) else words
          clamped := r.clamped, skipped := r.skipped }

/-! ## Load diagnosis (R195) -/

/-- The diagnosis that a PCH_DIAG asks for, and how many of its values were taken as a limit. -/
def diagParse (mask : BitVec 16) (uid : BitVec 32) (b : List Byte) : Diag × Nat :=
  let lim := fun (off : Nat) (lo hi dflt : F36) =>
    if b.isEmpty then (dflt, 0)
    else
      let v := f36At b off
      if flt v lo then (lo, 1) else if flt hi v then (hi, 1) else (fcanon v, (0 : Nat))
  let v := lim 0x00 fHalf (fint 4) (fint 2)
  let f := lim 0x08 (fint 20) (fint 20000) (fint 1000)
  let o := lim 0x10 (fint 50) (fint 1000) (fint 200)
  let s := lim 0x18 (f36Rat 1 4) (fint 4) fOne
  let rails := (List.range 4).map (fun g => if b.isEmpty then fint 12 else fcanon (f36At b (0x20 + 8 * g)))
  ({ mask := mask, ridx := uid, vtest := v.1, freq := f.1, open_ := o.1, short := s.1, rails := rails },
   v.2 + f.2 + o.2 + s.2)

/-- A test rail of a group that the mask names is out of range: the command is refused (R195). -/
def diagRailBad (d : Device) (g : Diag) : Bool :=
  (maskGroups d g.mask).any (fun j =>
    let v := nth 0 g.rails j
    flt v (fint 5) || flt (fint 48) v || flt (railLimit d j) v)

/-! ## Cores (R312, R314) -/

/-- CORE_OFFLINE at its AF. (log 59: DEDUCED, unsafe.) -/
def coreOff (core : Nat) (uid : BitVec 32) (e : Env) (d : Device) : ARes :=
  match (cslotAt d core).st with
  | .spare => aOk (setCoreSt core .offline 0 e d)
  | .available =>
    match (if (replacement d core).isSome then none else (scatter d core).1.fail) with
    | some f => { dev := d, status := some 0x010C, detail := failDetail f }
    | none => aLater (leaveCore core (some uid) false e d)
  | _ => aRefuse stRange d

/-- The check that accepts a CORE_ONLINE (R33, R314): with an orphan set, the core holds it. -/
def onlineCheck (d : Device) (core : Nat) : Check :=
  if d.disp.orphans.isEmpty then budgetCheck (checkIn d)
  else budgetCheck { checkIn d with
    avail := (List.range 64).filter (fun c => (availCores d).contains c || c = core)
    homes := d.disp.orphans.foldl (fun (m : SMap Nat) f => mset 0 m f (core + 1)) d.disp.homes }

/-- Places of flows one after the other from word 0. -/
def stackFlows (d : Device) (core : Nat) : List Nat → Nat → List (Nat × Nat × Nat)
  | [], _ => []
  | f :: r, w => (f, core, w) :: stackFlows d core r (w + match taskAt d f with | some t => t.state | none => 0)

/-- CORE_ONLINE at its AF: the core is SPARE with its scratch cleared; an orphan set is gathered by the next frame's
copy. `detail` holds the margins of the check that accepted it (R282, R295). (log 59: DEDUCED, unsafe.) -/
def coreOn (core : Nat) (detail : List Nat) (e : Env) (d : Device) : ARes :=
  if (cslotAt d core).st ≠ .joining then aRefuse stRange d
  else
    let d := modCore core (clearScratch (fun _ => true)) d
    let d := setCoreSt core .spare 2 e d
    if d.disp.orphans.isEmpty then { dev := d, detail := detail }
    else
      let j : CopyJob := { src := none, dest := some core, moves := stackFlows d core d.disp.orphans 0 }
      { dev := { d with disp := { d.disp with copyNext := d.disp.copyNext ++ [j] } }, detail := detail }

/-! ## Pair commands (R222, R223, R240, R241, R248) -/

/-- PAIR_JOIN at its AF: the hub starts rendering as a standby in RESYNC. (log 95: DEDUCED, unsafe.) -/
def pairJoin (e : Env) (d : Device) : ARes :=
  if d.pwr.rendering then aRefuse 0x010A d else aOk (enterResync 0 e (startRender e d))

/-- PAIR_REJOIN at its AF. (log 95: DEDUCED, unsafe.) -/
def pairRejoin (e : Env) (d : Device) : ARes :=
  if d.pair.thermalNow || !d.clk.sysLocked then aRefuse 0x0117 d
  else match d.pair.st with
  | .single => aOk { d with pair := { d.pair with singleFit := true } }
  | .unfit => aOk (enterResync 0 e d)
  | _ => aOk d

/-- PAIR_WITHDRAW at its AF: an active hub withdraws with cause HOST from the next tick; a standby stops rendering.
(log 95: DEDUCED, unsafe.) -/
def pairWithdraw (e : Env) (d : Device) : ARes :=
  if isActive d.pair then aOk (noteCause causeHost d)
  else if d.pair.st = .stopped then aOk d
  else aOk (stopRender e (setPairSt .stopped causeHost e d))

/-- PAIR_HANDOVER at its AF: the standby promotes, the active enters IN_SYNC. -/
def pairHandover (mirrored : Bool) (e : Env) (d : Device) : ARes :=
  if mirrored then aOk (if isSync d.pair then promote e d else d)
  else aOk (setPairSt .inSync 0 e d)

/-! ## Every command -/

/-- The start of rendering at AF. The hub that accepted it is active already; a standby that took it from a mirror
starts as standby with an EPOCH one lower (R223). -/
def applyStart (mirrored : Bool) (e : Env) (d : Device) : ARes :=
  if d.pwr.rendering then aRefuse 0x010A d
  else
    let d := startRender e d
    if !mirrored then { dev := d, detail := d.img.margins }
    else
      let d := { d with pair := { d.pair with epoch := d.pair.peerEpoch - 1 } }
      { dev := setPairSt .inSync 0 e d, detail := d.img.margins }

/-- What a command does at its AF, FN = `e.fn`; `due` are the members of a group write that are due, none for all.
(log 44: DEDUCED, unsafe.) -/
def applyCmd (p : Pend) (due : Option (List Nat)) (e : Env) (d : Device) : ARes :=
  let c := p.d
  let b := p.operand.getD []
  let f := c.func.toNat
  match p.opcode with
  | 0x0001 => aOk d
  | 0x0002 => aLater d
  | 0x0003 => applyStart p.fromMirror e d
  | 0x0004 =>
    if !rendersNow d then aRefuse 0x010B d
    else if (List.range 16).any (pchActive d) then aRefuse 0x0118 d
    else aLater (stopRender e d)
  | 0x0005 => match funcOf f with | some x => applyReset x p.uid e d | none => aRefuse 0x0101 d
  | 0x0006 => coreOff (argN c 0x20 1) p.uid e d
  | 0x0007 => coreOn (argN c 0x20 1) p.detail e d
  | 0x0008 =>
    let r := argN c 0x20 1
    match ringEntry r e d with
    | none => aRefuse 0x0106 d
    | some x =>
      let t := ringTake r x e d
      if t.1 = 0 then { dev := t.2, clamped := if ringClamps r x then 1 else 0 } else aRefuse t.1 d
  | 0x0009 =>
    let t := d.disp.trace
    let n := argN c 0x24 4
    match argN c 0x20 1 with
    | 0 => aOk { d with disp := { d.disp with trace := { t with on := false } } }
    | 1 =>
      let t := { t with on := true, sel := BitVec.ofNat 8 (argN c 0x21 1), clMask := BitVec.ofNat 8 (argN c 0x22 1)
                        left := if n = 0 then none else some n, rseq := 0 : TraceState }
      aOk { d with disp := { d.disp with trace := t } }
    | _ => aOk (traceFlush d)
  | 0x000A => aOk d
  | 0x0100 =>
    let r := if c.addr = 0 then motionOne c.args d else motionBatch b d
    { dev := r.1, status := some r.2.1, detail := r.2.2 }
  | 0x0101 =>
    let first := argN c 0x20 2
    let n := argN c 0x22 2
    applyTable (firstRule first ((entries 64 n b).map spkRule)) (spkApply first n b) d
  | 0x0102 =>
    let first := argN c 0x20 2
    let n := argN c 0x22 2
    applyTable (triStaged first n b d) (triApply first n b) d
  | 0x0103 => applyTable (firstRule 0 ((entries 8 4096 b).map gainRule)) (dirApply (argN c 0x20 1) b) d
  | 0x0104 => applyTable (firstRule 0 ((entries 16 (nOut d) b).map gainRule)) (directApply (argN c 0x20 2) b) d
  | 0x0200 => applyParam c due e.fn d
  | 0x0201 => applyGroup p d
  | 0x0202 =>
    let ms := due.getD (coefMembers d (argN c 0x20 1) (argN c 0x21 1) (argN c 0x22 2))
    let r := applyCoef p ms e.fn d
    if r.status = some 0 && argN c 0x21 1 ≠ 0 then
      { r with detail := [ms.length, 0, r.skipped, e.fn.toNat, e.fn.toNat] } else r
  | 0x0300 => applyRoute c d
  | 0x0301 => applyStreamRx c e d
  | 0x0302 => applyStreamTx c d
  | 0x0303 => applySink c d
  | 0x0304 =>
    let n := f - 0x20
    let on := argN c 0x20 1 = 1
    if on && !decConsistent (cfg d).fs96 (decAt d n) then aRefuse stRange d
    else if !on && chainBusy d n then aRefuse 0x0118 d
    else aOk (modDec n (fun x => { x with started := on }) d)
  | 0x0400 => aLater (pchStart (f - 0x50) p.uid e d)
  | 0x0401 => aLater (pchStop (f - 0x50) p.uid e d)
  | 0x0402 => aLater (diagStart (diagParse (BitVec.ofNat 16 (argN c 0x20 2)) p.uid b).1 e d)
  | 0x0403 => aLater (pchClear (f - 0x50) p.uid e d)
  | 0x0404 => aLater (limitStart p.uid b e d)
  | 0x0500 => aOk (servoSample (sext 64 (argN c 0x20 8)) (BitVec.ofNat 32 (argN c 0x28 4)) e d)
  | 0x0501 => aOk (epochInstall (epochArgs c.args) (nth 0 p.detail 0) d)
  | 0x0502 => aOk (clockRef (argN c 0x20 1) e d)
  | 0x0503 => pairJoin e d
  | 0x0504 => pairRejoin e d
  | 0x0505 => pairWithdraw e d
  | 0x0506 => pairHandover p.fromMirror e d
  | _ => aRefuse 0x0100 d

/-! ## Application and completion (R29, R32, R174, R280) -/

/-- Opcodes whose DONE is posted a frame after AF: QUERY, COEF_LOAD. -/
def doneNext (op : Nat) : Bool := op = 0x000A || op = 0x0202

/-- The members of a command that are due. -/
def dueMembers (p : Pend) (fn : BitVec 32) : List Nat :=
  (p.members.filter (fun m => !m.applied && !later m.af fn)).map (·.idx)

/-- A command is due at tick FN. -/
def isDue (p : Pend) (fn : BitVec 32) : Bool :=
  p.staged && !p.applied && (if p.members.isEmpty then !later p.af fn else !(dueMembers p fn).isEmpty)

/-- First and last AF of a group write's members. -/
def memberAfs (p : Pend) : BitVec 32 × BitVec 32 :=
  p.members.foldl (fun a m => (if earlier m.af a.1 then m.af else a.1, laterOf a.2 m.af)) (p.af, p.af)

/-- The highest mirror sequence number whose AF has come, with its RIDX (R247). -/
def noteApplied (p : Pend) (d : Device) : Device :=
  match p.mseq with
  | none => d
  | some m =>
    if later m d.pair.applied then { d with pair := { d.pair with applied := m, appliedRidx := p.ridx } } else d

/-- The device applies what is due of an accepted command. A staging that missed the AF shows as STAGING_FAULT and is a
budget overrun (R32); a failed operand read completes the command with DMA_FAIL (R262). -/
def applyDue (p : Pend) (e : Env) (d : Device) : Device :=
  let due := dueMembers p e.fn
  let missed := if p.members.isEmpty then p.af ≠ e.fn
    else p.members.any (fun m => !m.applied && earlier m.af e.fn)
  match p.operand with
  | none => finishCmd p 0x0106 [] none e d
  | some _ =>
    let r := applyCmd p (if p.members.isEmpty then none else some due) e (noteApplied p d)
    let d := when missed (noteCause causeBudget) r.dev
    let st := if missed then 1 else 0
    let ms := p.members.map (fun m => if due.contains m.idx && !later m.af e.fn then { m with applied := true } else m)
    let open_ := ms.any (fun m => !m.applied)
    let q : Pend := { p with
      members := ms, clamped := p.clamped + r.clamped, skipped := p.skipped + r.skipped
      status := max p.status st, applied := !open_
      detail := if r.detail.isEmpty then p.detail else r.detail }
    match r.status with
    | none => modPend p.uid (fun x => { x with applied := true, clamped := q.clamped, status := q.status }) d
    | some c =>
      if c ≥ 0x0100 then finishCmd { p with clamped := 0 } c r.detail none e d
      else
        let a := memberAfs q
        let words := if ms.length > 1 || (!ms.isEmpty && argN p.d (if p.opcode = 0x0200 then 0x22 else 0x21) 1 ≠ 0)
          then [ms.length + p.skipped, q.clamped, q.skipped, a.1.toNat, a.2.toNat] else r.detail
        if open_ then modPend p.uid (fun _ => q) d
        else if doneNext p.opcode then
          modPend p.uid (fun _ => { q with doneAt := some (e.fn + 1), detail := words }) d
        else finishCmd q q.status words none e d

/-- Every command that is due at tick FN, in acceptance order (R29). -/
def applyFrame (e : Env) (d : Device) : Device :=
  forAll (d.cmd.queue.filter (fun p => isDue p e.fn)) (fun p d =>
    -- a command dropped by one before it is no longer in the queue
    match d.cmd.queue.find? (fun q => q.uid = p.uid) with
    | some q => applyDue q e d
    | none => d) d

/-- A FENCE completes once it has been applied and every command accepted before it has posted its DONE; the command
after it arrives at the next tick, so the ring engine reads nothing more in this frame (R283). -/
def fenceCheck (e : Env) (d : Device) : Device :=
  match d.cmd.fence with
  | none => d
  | some u =>
    match d.cmd.queue.find? (fun p => p.uid = u) with
    | none => { d with cmd := { d.cmd with fence := none } }
    | some p =>
      let before := d.cmd.queue.takeWhile (fun q => q.uid ≠ u)
      if p.applied && before.isEmpty then
        let d := finishCmd p p.status [] none e d
        { d with cmd := { d.cmd with readNow := 256 } }
      else d

end Sys2Proof.Machine
end

