-- ==== Sys2Proof/Machine/Query.lean ====
section
/-! DEFINITION. QUERY (R267, R293, R294): the size of each payload, its refusals, and its contents. -/
namespace Sys2Proof.Machine

/-! ## Counters (R294) -/

/-- Counters of one element of a function, none where the function has no counters. -/
def counterWords (d : Device) (f : Func) (i : Nat) : Option (List Nat) :=
  match f with
  | .ring =>
    let sum := fun (g : Ring → Nat) => d.ring.rings.foldl (fun a p => add32 a (g p.2)) 0
    some [d.ring.dbMiss, sum (·.idxBad), d.evt.lost, d.disp.trace.lost, sum (·.bufBad), d.cmd.lateCnt, d.cmd.deferCnt,
          mget 0 d.xbar.hw 1, mget 0 d.xbar.hw 2, mget 0 d.xbar.hw 3]
  | .geo => some ((List.range 7).map (mget 0 d.geo.flagCnt) ++ [d.geo.overruns])
  | .xpe => some ((List.range 4).map (mget 0 (xpeCounts d)))
  | .stream =>
    let c := rxCntAt d i
    some [c.early, c.late, c.lost0, c.lost1, c.mismatch, c.held, c.faded, c.substituted, c.switchScarf]
  | .ain r =>
    let m := ainMedAt d r
    some [m.slips, m.bridgeMute, m.bridgeLock, m.rateMismatch]
  | .port p =>
    let x := portAt d p
    some ((List.range 42).map (mget 0 x.stat) ++ [x.stageFull, x.noBuf, x.trunc, x.m2Discard])
  | .pch n =>
    let p := pchAt d n
    some [p.pwmClip, p.ocComp, p.ocSense, p.ocIdle]
  | .disp => some [(outAt d i).overruns]
  | _ => none

/-- Elements that a COUNTERS query may name: receive slots, outputs; none for a function that has one set. -/
def counterSpan (d : Device) : Func → Option Nat
  | .stream => some 128
  | .disp => some (nOut d)
  | _ => none

/-- The elements that a COUNTERS query covers. -/
def counterElems (d : Device) (f : Func) (first count : Nat) : List Nat :=
  match counterSpan d f with
  | some _ => (List.range count).map (first + ·)
  | none => [0]

/-! ## Sizes and refusals -/

/-- Payload bytes of a query, none for an unlisted QID (R293). -/
def querySize (d : Device) (c : CmdDesc) : Option Nat :=
  let count := argN c 0x26 2
  match argN c 0x20 2 with
  | 0x01 => some (32 * count * argN c 0x2C 2)
  | 0x02 => some 32768
  | 0x03 => some (16 * count)
  | 0x04 => some (4 * count + 128)
  | 0x05 =>
    match (funcOf c.func.toNat).filter (funcHere d.pwr.spoke) with
    | none => some 0
    | some f => some (4 * ((counterElems d f (argN c 0x24 2) count).map (fun i => ((counterWords d f i).getD []).length)).sum)
  | 0x06 => some 256
  | 0x07 => some 128
  | 0x08 => some (128 * d.jrn.slots.length)
  | 0x09 => some 64
  | 0x0A => some 76
  | 0x0B => some 80
  | 0x0C => some (8 * (6 * interpR d + 1))
  | 0x0D => some 184
  | 0x0E => some 504
  | _ => none

/-- The smallest LEN of a data area for a payload (R267). -/
def areaLen (payload : Nat) : Nat := (payload + 24 + 63) / 64 * 64

/-- A function ID that names a power channel which is not configured (R545). -/
def pchAbsent (d : Device) : Func → Bool
  | .pch n => !pchConfigured d n
  | _ => false

/-- The refusal of a query's arguments, 0 for none (R293, R294, R545). (log 71: DEDUCED, unsafe.) -/
def queryRefusal (d : Device) (c : CmdDesc) : Nat :=
  let first := argN c 0x24 2
  let count := argN c 0x26 2
  let objs := first + count > nObj d
  match argN c 0x20 2 with
  | 0x01 => if objs || argN c 0x28 2 + argN c 0x2C 2 > nOut d || count * argN c 0x2C 2 > 65536 then stRange else 0
  | 0x03 => if objs then stRange else 0
  | 0x04 => if objs then stRange else 0
  | 0x05 =>
    match (funcOf c.func.toNat).filter (funcHere d.pwr.spoke) with
    | none => 0x0101
    | some f =>
      if (counterWords d f 0).isNone then 0x0101
      else if pchAbsent d f then stRange
      else match counterSpan d f with
        | some n => if first + count > n then stRange else 0
        | none => 0
  | 0x0E => if first ≥ 40 then stRange else 0
  | _ => 0

/-! ## Payloads -/

/-- FLAGS of a STATUS message (R227). -/
def statusFlags (d : Device) : Nat :=
  ofBits [isActive d.pair, isFit d.pair, isSync d.pair, (d.pair.own.getLast?.map (·.nc)).getD false]

/-- A crosspoint record of XP_STATE (R100); J is that of the bank the last rendered frame used.
(log 41: DEDUCED, unsafe.) -/
def xpRecord (d : Device) (odd : Bool) (o n : Nat) : List Byte :=
  let x := xpAt d o n
  let flags := ofBits [if odd then x.j1 else x.j0, (objAt d o).pendJump] + 4 * x.kind
  leBytes 4 x.dCur ++ leBytes 4 x.dLast ++ f36Field x.gCur ++ f36Field x.gLast ++ leBytes 2 flags ++ leBytes 2 o
    ++ leBytes 2 n ++ zeros 2

/-- The payload as it stands at the end of frame AF, taken before the actions of tick AF + 1 = `e.fn` (R293).
(log 85: DEDUCED, unsafe.) -/
def queryPayload (c : CmdDesc) (e : Env) (d : Device) : List Byte :=
  let first := argN c 0x24 2
  let count := argN c 0x26 2
  let objs := (List.range count).map (first + ·)
  match argN c 0x20 2 with
  | 0x01 =>
    let outs := (List.range (argN c 0x2C 2)).map (argN c 0x28 2 + ·)
    objs.flatMap (fun o => outs.flatMap (fun n => xpRecord d (e.fn.getLsbD 0) o n))
  | 0x02 => (List.range 512).flatMap (fun phi => (kernelRow phi).flatMap f36Field)
  | 0x03 => objs.flatMap (fun o =>
      let x := objAt d o
      leBytes 2 x.geoFlags.toNat ++ zeros 2 ++ leBytes 2 x.firstLow ++ leBytes 2 x.firstHigh ++ leBytes 2 x.firstClamp
        ++ leBytes 2 0xFFFF ++ zeros 4)
  | 0x04 => objs.flatMap (fun o => leBytes 2 (objAt d o).xpeFlags.toNat ++ zeros 2)
      ++ (List.range 16).flatMap (fun b => leBytes 4 (mget 0 d.xp.scarfCnt b) ++ leBytes 4 (mget 0 d.xp.holdCnt b))
  | 0x05 =>
    match (funcOf c.func.toNat).filter (funcHere d.pwr.spoke) with
    | none => []
    | some f => (counterElems d f first count).flatMap (fun i => ((counterWords d f i).getD []).flatMap (leBytes 4))
  | 0x06 => (List.range 16).flatMap (fun n =>
      let p := pchAt d n
      leBytes 1 (pchNum p.st) ++ leBytes 1 p.rc ++ leBytes 1 p.diagOk.toNat ++ leBytes 1 p.cause ++ leBytes 1 p.diagRes
        ++ zeros 3 ++ f36Field p.diagZ)
  | 0x07 => limitBytes (limitsNow d)
  | 0x08 => d.jrn.slots.flatMap limitBytes
  | 0x09 =>
    let q := d.pair
    leBytes 1 (pairNum q.st) ++ leBytes 1 (statusFlags d) ++ leBytes 1 q.cause ++ leBytes 1 q.stage
      ++ [q.epoch.toNat, q.peerEpoch.toNat, q.applied.toNat, q.appliedRidx.toNat, q.matched, q.skipped, q.mismatches,
          q.resyncs, q.switches].flatMap (leBytes 4)
      ++ leBytes 8 (cfg d).digest.toNat ++ zeros 16
  | 0x0A => (List.range 19).flatMap (fun i => leBytes 4 (nth 0 d.img.budget i))
  | 0x0B =>
    let w := wfsOf d d.inp.wfsLive
    [w.1, w.2].flatMap (fun s => [s.b0, s.b1, s.b2, s.a1, s.a2].flatMap f36Field)
  | 0x0C => (interpTaps (interpR d)).flatMap f36Field
  | 0x0D => hbTaps.flatMap f36Field
  | _ => (firOf (cfg d).fs96 (decAt d first)).flatMap f36Field

/-- The data area of a query that completes at tick AF + 1. -/
def queryArea (c : CmdDesc) (e : Env) (d : Device) : Area :=
  { addr := c.addr.toNat, len := c.len.toNat, fn := e.fn - 1, payload := (queryPayload c e d).take (c.len.toNat - 24) }

/-- A command's DONE is due at tick FN: in its frame; a load's, while rendering runs, at the end of it, when the scarf frame has
been rendered or given up (R166, R280). -/
def doneDue (d : Device) (fn : BitVec 32) (p : Pend) : Bool :=
  match p.doneAt with
  | none => false
  | some a => if p.opcode = 0x0202 && d.pwr.rendering then earlier a fn else !later a fn

/-- Commands whose DONE is due at tick FN (R280): a query's snapshot is taken with it. Done before the tick's other
actions. (log 85: DEDUCED, unsafe.) -/
def finishFrame (e : Env) (d : Device) : Device :=
  forAll (d.cmd.queue.filter (doneDue d e.fn)) (fun p d =>
    let area := if p.opcode = 0x000A then some (queryArea p.d e d) else none
    finishCmd p p.status p.detail area e d) d

end Sys2Proof.Machine
end

