-- ==== Sys2Proof/Machine/Accept.lean ====
section
/-! DEFINITION. Acceptance of a command (R28, R30, R33, R38, R229, R264, R280 to R293, R545): its refusals in their
order, its decided AF, and what acceptance does at once. -/
namespace Sys2Proof.Machine

/-! ## The opcode table (R280) -/

/-- The opcodes of R280. -/
def opcodes : List Nat :=
  [0x0001, 0x0002, 0x0003, 0x0004, 0x0005, 0x0006, 0x0007, 0x0008, 0x0009, 0x000A, 0x0100, 0x0101, 0x0102, 0x0103,
   0x0104, 0x0200, 0x0201, 0x0202, 0x0300, 0x0301, 0x0302, 0x0303, 0x0304, 0x0400, 0x0401, 0x0402, 0x0403, 0x0404,
   0x0500, 0x0501, 0x0502, 0x0503, 0x0504, 0x0505, 0x0506]

/-- The Pair column (R280): M mirrored, L local, A active hub alone, S the spoke role alone. -/
inductive PairCol where
  | m | l | a | s
deriving DecidableEq, Repr

def pairCol (op func : Nat) : PairCol :=
  match op with
  | 0x0001 | 0x0002 | 0x0009 | 0x000A | 0x0503 | 0x0504 | 0x0505 => .l
  | 0x0005 => if between 1 4 func then .l else .m
  | 0x0006 | 0x0007 | 0x0404 | 0x0500 | 0x0501 | 0x0502 => .a
  | 0x0400 | 0x0401 | 0x0402 | 0x0403 => .s
  | _ => .m

/-- Fields of ARGS that a command uses, by descriptor offset and size; every other byte is reserved. -/
def argUse (c : CmdDesc) (op : Nat) : List (Nat × Nat) :=
  match op with
  | 0x0006 | 0x0007 | 0x0008 | 0x0103 | 0x0304 | 0x0502 => [(0x20, 1)]
  | 0x0009 => [(0x20, 3), (0x24, 4)]
  | 0x000A => [(0x20, 2), (0x24, 2), (0x26, 2), (0x28, 2), (0x2C, 2)]
  | 0x0100 => if c.addr = 0 then [(0x20, 17), (0x38, 8)] else []
  | 0x0101 | 0x0102 => [(0x20, 4)]
  | 0x0104 | 0x0402 => [(0x20, 2)]
  | 0x0200 => [(0x20, 6), (0x28, 8)]
  | 0x0201 => [(0x20, 2)]
  | 0x0202 => [(0x20, 4)]
  | 0x0300 => [(0x20, 5), (0x26, 10)]
  | 0x0301 => [(0x20, 20)]
  | 0x0302 => [(0x20, 3), (0x24, 20)]
  | 0x0303 => [(0x20, 8)]
  | 0x0500 => [(0x20, 12)]
  | 0x0501 => [(0x20, 6), (0x28, 4), (0x30, 6), (0x38, 4)]
  | _ => []

/-- Reserved bytes of ARGS are zero. (log 76: DEDUCED, unsafe.) -/
def argsClean (c : CmdDesc) (op : Nat) : Bool :=
  (List.range 32).all (fun i =>
    nth 0 c.args i = 0 || (argUse c op).any (fun p => decide (p.1 ≤ 0x20 + i) && decide (0x20 + i < p.1 + p.2)))

/-- The commands with an operand or a data area at ADDR. -/
def takesAddr (op : Nat) : Bool :=
  [0x000A, 0x0100, 0x0101, 0x0102, 0x0103, 0x0104, 0x0201, 0x0202, 0x0402, 0x0404].contains op

/-- The commands for which ADDR 0 is a form of its own. -/
def addrOptional (op : Nat) : Bool := op = 0x0100 || op = 0x0402

/-- The commands that name a function in FUNC. -/
def namesFunc (c : CmdDesc) (op : Nat) : Bool :=
  [0x0005, 0x0304, 0x0400, 0x0401, 0x0403].contains op || (op = 0x000A && argN c 0x20 2 = 5)

/-- A value that no F36 field holds (R60). -/
def badF36 (v : Nat) : Bool := decide (v ≥ pow2 36)

/-- The STREAM_ID of an AES67 slot is malformed (R416): encoding 0 or 1, payload type 0 (receive) or 96 to 127. -/
def badRtpId (rx : Bool) (v : Nat) : Bool :=
  let pt := v / pow2 48 % 256
  decide (v / pow2 56 > 1) || !((rx && pt = 0) || between 96 127 pt)

/-- PARAM_WRITE breaks the rules of R287 or R289, or names an unlisted parameter (R288). (log 76: DEDUCED, unsafe.) -/
def badParam (c : CmdDesc) : Bool :=
  let space := argN c 0x20 1
  let pnum := argN c 0x21 1
  let target := argN c 0x22 1
  let mode := argN c 0x23 1
  let idx := argN c 0x24 2
  decide (pnum ≥ paramCount space) || decide (target > 2) || decide (mode > 1)
    || (target = 1 && space ≠ 2 && space ≠ 3)
    || (space = 0 && (target ≠ 0 || idx ≠ 0))
    || (target = 2 && idx ≠ 0)
    || (mode = 1 && !paramRel space pnum)
    || (paramF36 space pnum && badF36 (argN c 0x28 8))

/-- A reserved bit or an unlisted enumeration value inside a named field (R280). -/
def badEnum (d : Device) (c : CmdDesc) (op : Nat) : Bool :=
  match op with
  | 0x0009 => decide (argN c 0x20 1 > 2) || decide (argN c 0x21 1 ≥ 128)
  | 0x000A => (querySize d c).isNone || c.addr = 0 || c.len.toNat % 64 ≠ 0
  | 0x0100 => c.addr = 0 && (decide (argN c 0x20 2 ≥ 1024) || decide (argN c 0x22 1 ≥ 32) || decide (argN c 0x24 1 ≥ 4))
  | 0x0104 => decide (argN c 0x20 2 ≥ 1024)
  | 0x0200 => badParam c
  | 0x0201 => decide (argN c 0x21 1 > 2)
  | 0x0202 =>
    let block := argN c 0x20 1
    let target := argN c 0x21 1
    !between 1 6 block || decide (target > 2) || (block = 5 && argN c 0x21 3 ≠ 0) || (block = 6 && target = 1)
      || (target = 2 && argN c 0x22 2 ≠ 0)
  | 0x0300 => decide (argN c 0x24 1 > 7) || badF36 (argN c 0x28 8)
  | 0x0301 =>
    let fmt := argN c 0x21 1
    let hub := argN c 0x23 1
    decide (fmt > 5) || decide (argN c 0x22 1 > 3)
      || (if d.pwr.spoke && between 3 5 fmt then !between 1 2 hub else hub ≠ 0)
      || (fmt ≠ 2 && argN c 0x30 4 ≠ 0) || (fmt = 2 && badRtpId true (argN c 0x28 8))
  | 0x0302 =>
    let fmt := argN c 0x21 1
    decide (fmt > 4) || decide (argN c 0x22 1 > 3) || bit (argN c 0x36 2) 12
      || (between 1 2 fmt && argN c 0x26 2 ≠ 0) || (fmt = 2 && badRtpId false (argN c 0x28 8))
  | 0x0303 => !between 1 3 (argN c 0x22 1) || decide (argN c 0x23 1 > 1) || (argN c 0x22 1 = 1 && argN c 0x26 2 ≠ 0)
  | 0x0304 => decide (argN c 0x20 1 > 1)
  | 0x0502 => decide (argN c 0x20 1 > 3)
  | _ => false

/-- The descriptor is refused with ARGS_BAD (R263, R280). (log 71: DEDUCED, unsafe.) -/
def argsBad (d : Device) (c : CmdDesc) (op : Nat) : Bool :=
  c.rsv0 ≠ 0 || c.rsv1 ≠ 0 || decide (c.cflags.toNat ≥ 4) || !argsClean c op
    || (!namesFunc c op && c.func ≠ 0)
    || (!takesAddr op && (c.addr ≠ 0 || c.len ≠ 0))
    || (takesAddr op && !addrOptional op && c.addr = 0)
    || badEnum d c op

/-! ## Roles and pair states -/

/-- The command does not exist in the role, or needs a pair (R222, R280, R288, R292). -/
def roleBad (d : Device) (c : CmdDesc) (op : Nat) : Bool :=
  let fmt := argN c 0x21 1
  match op with
  | 0x0400 | 0x0401 | 0x0402 | 0x0403 => !d.pwr.spoke
  | 0x0200 => !d.pwr.spoke && between 3 4 (argN c 0x20 1)
  | 0x0301 => !d.pwr.spoke && between 4 5 fmt
  | 0x0302 => d.pwr.spoke && between 3 4 fmt
  | 0x0503 | 0x0506 => !paired d
  | 0x0504 | 0x0505 => d.pwr.spoke
  | _ => false

/-- A peer that is active was heard in the last 3 frames (R223). -/
def activeHeard (d : Device) : Bool := decide (d.pair.streamSilence < 3) || decide (d.pair.statusSilence < 3)

/-- A paired hub that is not active refuses the command (R229, R280); a stopped hub that hears no active one takes what an
active hub takes. A register form is accepted in every state (R281). -/
def notActive (d : Device) (c : CmdDesc) (op : Nat) (silent : Bool) : Bool :=
  if !paired d || silent || isActive d.pair then false
  else
    let col := pairCol op c.func.toNat
    if d.pair.st = .stopped then col = .a || op = 0x0506 || (activeHeard d && col ≠ .l) else col ≠ .l

/-- The command is accepted without an image (R486). -/
def imageFree (c : CmdDesc) (op : Nat) : Bool :=
  [0x0001, 0x0002, 0x0009, 0x0404, 0x0500, 0x0501].contains op
    || (op = 0x000A && [5, 7, 8].contains (argN c 0x20 2))

/-! ## Staging work (R38, R164, R280, R290) -/

/-- W of a command, in core cycles; a coefficient load's bound is R164's.
(log 72: DEDUCED, unsafe; log 73: DEDUCED, unsafe.) -/
def stageWork (d : Device) (c : CmdDesc) (op : Nat) : Nat :=
  match op with
  | 0x0007 => 40000
  | 0x0100 => if c.addr = 0 then 0 else 32 * (c.len.toNat / 32)
  | 0x0101 => 48 * nOut d + 2000
  | 0x0102 => 133072
  | 0x0103 => 17384
  | 0x0104 => 8 * nOut d + 1000
  | 0x0200 => if paramBudget (argN c 0x20 1) (argN c 0x21 1) then 40000 else 0
  | 0x0301 | 0x0302 => 2000
  | _ => 0

/-- The bytes of the operand that a command reads (0: none). -/
def cmdBytes (d : Device) (c : CmdDesc) (op : Nat) : Nat :=
  let count := argN c 0x22 2
  match op with
  | 0x0100 => if c.addr = 0 then 0 else c.len.toNat
  | 0x0101 => 64 * count
  | 0x0102 => 96 * count
  | 0x0103 => 32768
  | 0x0104 => 16 * nOut d
  | 0x0201 => 64
  | 0x0202 => max 64 c.len.toNat
  | 0x0402 => if c.addr = 0 then 0 else 64
  | 0x0404 => 128
  | _ => 0

/-- Operands that are read at acceptance: their commands have no staging work. -/
def readsNow (op : Nat) : Bool := op = 0x0201 || op = 0x0402 || op = 0x0404

/-- The members of a write or load that swaps banks or changes a configuration, and how many lack the block (R162, R172, R174, R291).
(log 74: DEDUCED, unsafe.) -/
def swapMembers (d : Device) (c : CmdDesc) (op : Nat) : List Nat × Nat :=
  let split := fun (l : List Nat) (lacks : Nat → Bool) => (l.filter (fun n => !lacks n), (l.filter lacks).length)
  if op = 0x0200 && paramSwap (argN c 0x20 1) (argN c 0x21 1) then
    split (targetMembers d 2 (argN c 0x22 1) (argN c 0x24 2)) (fun n => outLacks d n (argN c 0x21 1))
  else if op = 0x0202 && between 1 5 (argN c 0x20 1) then
    split (coefMembers d (argN c 0x20 1) (argN c 0x21 1) (argN c 0x22 2)) (blockLacks d (argN c 0x20 1))
  else ([], 0)

/-! ## Refusals of each command -/

/-- PARAM_WRITE names elements that do not exist (R545), or a block the output lacks (R173).
(log 72: DEDUCED, unsafe.) -/
def paramRange (d : Device) (c : CmdDesc) : Bool :=
  let space := argN c 0x20 1
  let idx := argN c 0x24 2
  match argN c 0x22 1 with
  | 0 => !paramElem d space idx || (space = 2 && outLacks d idx (argN c 0x21 1))
  | 1 => decide (idx > 31)
  | _ => false

/-- COEF_LOAD names an element that does not exist or lacks the block (R173, R545). -/
def coefRange (d : Device) (c : CmdDesc) : Bool :=
  let block := argN c 0x20 1
  let idx := argN c 0x22 2
  match argN c 0x21 1 with
  | 0 =>
    if block = 4 then !pchConfigured d idx
    else if block = 5 then false
    else if block = 6 then decide (idx ≥ 40)
    else decide (idx ≥ nOut d) || blockLacks d block idx
  | 1 => decide (idx > 31)
  | _ => false

/-- STREAM_RX: a count or index beyond its range (R292, R545). -/
def rxRange (c : CmdDesc) : Bool :=
  let fmt := argN c 0x21 1
  let ch := argN c 0x24 2
  let top := if fmt = 4 then 1024 else if fmt = 5 then 512 else 2048
  decide (argN c 0x20 1 > 127)
    || (fmt ≠ 0 && (!between 1 64 ch || (fmt ≠ 3 && decide (argN c 0x26 2 + ch > top))))

/-- STREAM_TX: the same (R292, R415, R421, R545). -/
def txRange (d : Device) (c : CmdDesc) : Bool :=
  let fmt := argN c 0x21 1
  let ch := argN c 0x24 2
  let first := argN c 0x26 2
  let wide := if argN c 0x28 8 / pow2 56 = 0 then 3 else 2
  decide (argN c 0x20 1 > 127)
    || (fmt ≠ 0 && (!between 1 64 ch
      || (fmt = 2 && decide (ch * nSmp d * wide > 1440))
      || (fmt = 3 && decide (first ≥ nObj d)) || (fmt = 4 && decide (first + ch > nObj d))))

/-- The function that a command names is missing, of the wrong kind, or not configured (R14, R545): 0 for none. -/
def funcStatus (d : Device) (c : CmdDesc) (op : Nat) : Nat :=
  let f := (funcOf c.func.toNat).filter (funcHere d.pwr.spoke)
  let pch := fun (n : Nat) => if pchConfigured d n then 0 else stRange
  match op, f with
  | 0x0005, some (.pch n) => pch n
  | 0x0005, some _ => 0
  | 0x0304, some (.dec _) => 0
  | 0x0400, some (.pch n) => pch n
  | 0x0401, some (.pch n) => pch n
  | 0x0403, some (.pch n) => pch n
  | 0x0005, none => 0x0101
  | 0x0304, _ => 0x0101
  | 0x0400, _ => 0x0101
  | 0x0401, _ => 0x0101
  | 0x0403, _ => 0x0101
  | _, _ => 0

/-- Rings that RING_SETUP may name (R545). -/
def ringNumberOk (r : Nat) : Bool := between 4 127 r && !between 6 15 r && !between 48 63 r

/-- A refusal or none. -/
def orElse (a : Nat × List Nat) (b : Nat × List Nat) : Nat × List Nat := if a.1 ≠ 0 then a else b

/-- Status `code` where `c` holds. -/
def ifBad (c : Bool) (code : Nat) : Nat × List Nat := (if c then code else 0, [])

/-- The budget check fails (R33). -/
def ifFails (k : Check) : Nat × List Nat := match k.fail with | some f => (0x0107, failDetail f) | none => (0, [])

/-- Refusals of one command beyond those of every command, from the device as it stands at acceptance.
(log 70: DEDUCED, unsafe.) -/
def specific (d : Device) (c : CmdDesc) (op : Nat) : Nat × List Nat :=
  let core := argN c 0x20 1
  match op with
  | 0x0003 =>
    orElse (ifBad d.pwr.rendering 0x010A)
      (orElse (ifBad (paired d && activeHeard d) 0x0108) (ifFails (budgetCheck { checkIn d with homes := [], places := [] })))
  | 0x0004 =>
    orElse (ifBad (!rendersNow d) 0x010B) (ifBad ((List.range 16).any (pchActive d)) 0x0118)
  | 0x0006 => ifBad (decide (core ≥ 64)) stRange
  | 0x0007 =>
    orElse (ifBad (decide (core ≥ 64) || (cslotAt d core).st ≠ .offline || (cslotAt d core).unrepaired) stRange)
      (ifFails (onlineCheck d core))
  | 0x0008 => ifBad (!ringNumberOk (argN c 0x20 1)) stRange
  | 0x000A =>
    orElse (queryRefusal d c, [])
      (ifBad (decide (c.len.toNat < areaLen ((querySize d c).getD 0))) 0x0105)
  | 0x0100 =>
    if c.addr = 0 then ifBad (decide (argN c 0x20 2 ≥ nObj d)) stRange
    else ifBad (c.len.toNat % 32 ≠ 0 || !between 1 (nObj d) (c.len.toNat / 32)) stRange
  | 0x0101 => ifBad (decide (argN c 0x20 2 + argN c 0x22 2 > nOut d)) stRange
  | 0x0102 => ifBad (decide (argN c 0x20 2 + argN c 0x22 2 > 2048)) stRange
  | 0x0103 => ifBad (decide (argN c 0x20 1 > 63)) stRange
  | 0x0104 => ifBad (decide (argN c 0x20 2 ≥ nObj d)) stRange
  | 0x0200 => ifBad (paramRange d c) stRange
  | 0x0201 => ifBad (decide (argN c 0x20 1 > 31)) stRange
  | 0x0202 =>
    let chains := if argN c 0x20 1 = 6 then coefMembers d 6 (argN c 0x21 1) (argN c 0x22 2) else []
    orElse (ifBad (coefRange d c) stRange)
      (orElse (ifBad (chains.any (chainBusy d)) 0x0118) (ifBad (chains.any (chainRuns d)) 0x0114))
  | 0x0301 => ifBad (rxRange c) stRange
  | 0x0302 => ifBad (txRange d c) stRange
  | 0x0402 =>
    ifBad ((List.range 16).any (fun n => (argN c 0x20 2).testBit n && !pchConfigured d n)) stRange
  | 0x0501 => ifBad (!epochOk (epochArgs c.args)) stRange
  | 0x0503 => orElse (ifBad d.pwr.rendering 0x010A) (ifBad (!activeHeard d) 0x0108)
  | 0x0504 => ifBad (d.pair.thermalNow || !d.clk.sysLocked) 0x0117
  | 0x0506 => ifBad (!d.pair.up || (d.pair.peer.map (·.pstate)).getD 8 ≠ pairNum .inSync) 0x0116
  | _ => (0, [])

/-- Refusals that the operand decides, for the commands that read it at acceptance: R262, R195, R220.
(log 70: DEDUCED, unsafe; log 71: DEDUCED, unsafe.) -/
def operandRefusal (d : Device) (c : CmdDesc) (op : Nat) (b : Option (List Byte)) : Nat × List Nat :=
  match b with
  | none => (0x0106, [])
  | some x =>
    match op with
    | 0x0402 => ifBad (diagRailBad d (diagParse (BitVec.ofNat 16 (argN c 0x20 2)) 0 x).1) stRange
    | 0x0404 => (limitCheck d (limitParse x), [])
    | _ => (0, [])

/-- The refusal of a command at acceptance, 0 for none: OPCODE_BAD, NO_IMAGE, ARGS_BAD, ROLE, NOT_ACTIVE, FUNC_BAD,
ADDR_BAD, BUF_SHORT, then the command's own. A mirrored command is not held to the pair state.
(log 70: DEDUCED, unsafe.) -/
def refusal (d : Device) (op : Nat) (c : CmdDesc) (silent mirrored : Bool) : Nat × List Nat :=
  orElse (ifBad (!opcodes.contains op) 0x0100)
    (orElse (ifBad (d.img.img.isNone && !imageFree c op) 0x0122)
      (orElse (ifBad (argsBad d c op) stArgs)
        (orElse (ifBad (roleBad d c op) stRole)
          (orElse (ifBad (!mirrored && notActive d c op silent) 0x0108)
            (orElse (funcStatus d c op, [])
              (orElse (ifBad (takesAddr op && c.addr.toNat % 64 ≠ 0) 0x0104)
                (orElse (ifBad (decide (c.len.toNat < cmdBytes d c op)) 0x0105)
                  (if mirrored && (op = 0x0003 || op = 0x0506) then (0, []) else specific d c op))))))))

/-! ## The decided AF (R28, R38, R96, R138, R164, R165, R174, R282) -/

/-- A queued command holds frame `a` as its decided AF. -/
def holdsAf (p : Pend) (a : BitVec 32) : Bool := p.af = a || p.members.any (fun m => m.af = a)

/-- Commands and swaps that hold a frame. -/
def heldAt (d : Device) (a : BitVec 32) : Nat := (d.cmd.queue.filter (fun p => holdsAf p a)).length
def swapsAt (d : Device) (a : BitVec 32) : Nat :=
  (d.cmd.queue.map (fun p => (p.members.filter (fun m => m.af = a)).length)).sum

/-- Commands of which a frame takes one: a core's state copy (R39, which a SPARE core's departure does not need) or a
cluster reset (R312). -/
def onePerFrame (d : Device) (op : Nat) (c : CmdDesc) : Bool :=
  (op = 0x0006 && (cslotAt d (argN c 0x20 1)).st ≠ .spare) || (op = 0x0005 && between 0x60 0x67 c.func.toNat)

/-- A frame can take a command, one of those kinds or not. -/
def frameFree (d : Device) (one : Bool) (a : BitVec 32) : Bool :=
  decide (heldAt d a < 256) && !(one && d.cmd.queue.any (fun p => onePerFrame d p.opcode p.d && p.af = a))

/-- The first offset from `o` on that passes, among `n` + 1. -/
def firstOk (ok : Nat → Bool) : Nat → Nat → Nat
  | 0, o => o
  | n + 1, o => if ok o then o else firstOk ok n (o + 1)

/-- Members take their AFs in increasing index (R174): the offsets, given each member's earliest one. A frame that the
command holds already is not counted again. -/
def placeMembers (d : Device) (t : BitVec 32) (fuel : Nat) (l : List (Nat × Nat)) : List (Nat × Nat) :=
  l.foldl (fun (acc : List (Nat × Nat)) (m : Nat × Nat) =>
    let ok := fun (o : Nat) =>
      let a := t + BitVec.ofNat 32 o
      (acc.any (fun q => q.2 = o) || decide (heldAt d a < 256))
        && decide (swapsAt d a + (acc.filter (fun q => q.2 = o)).length < (cfg d).swapMax)
    acc ++ [(m.1, firstOk ok fuel m.2)]) []

/-- Offset of a frame from `t`, 0 where it is not later. -/
def offsetOf (t a : BitVec 32) : Nat := if later a t then (a - t).toNat else 0

/-- An accepted load of the same block of the same element that has not been superseded (R165). -/
def loadFloor (d : Device) (t : BitVec 32) (block n : Nat) : Nat :=
  d.cmd.queue.foldl (fun a p =>
    if p.opcode = 0x0202 && argN p.d 0x20 1 = block then
      (p.members.filter (fun m => m.idx = n)).foldl (fun a m => max a (offsetOf t m.af + 2)) a
    else a) 0

/-- Staging guarantees of a coefficient load, per member in order (R164): with B = 0 there is none. -/
def loadBounds (d : Device) (block len : Nat) (ms : List Nat) : List (Nat × Nat) :=
  let open_ := d.cmd.queue.filter (fun p => p.opcode = 0x0202 && !p.staged)
  let wq := (open_.map (·.work)).sum
  let vq := (open_.map (·.cveWork)).sum
  let b := budgetB d.img.budget
  let r := ms.foldl (fun (a : List (Nat × Nat) × Nat × Nat) n =>
    let f := if block = 3 then 3 + firFrames (cfg d) n len a.2.2 else 2 + cdiv (a.2.1 + 640) b
    (a.1 ++ [(n, f)], a.2.1 + 640, a.2.2 + firWork (cfg d) n)) ([], wq, vq)
  r.1

/-- The earliest AFs of a load's members: past its staging, and two frames past an earlier load of the block (R165). -/
def loadFloors (d : Device) (t : BitVec 32) (block len : Nat) (ms : List Nat) : List (Nat × Nat) :=
  (loadBounds d block len ms).map (fun p => (p.1, max p.2 (loadFloor d t block p.1)))

/-- Offset of the frame by which a command is staged (R38, R164), `ms` the elements that a load goes to. -/
def stageOffset (d : Device) (c : CmdDesc) (op w : Nat) (ms : List Nat) : Nat :=
  if op = 0x0202 then (loadBounds d (argN c 0x20 1) c.len.toNat ms).foldl (fun a p => max a p.2) 0
  else if w = 0 then 2 else 2 + cdiv w (budgetB d.img.budget)

/-- Rendering runs, or an accepted RENDER_START will start it. -/
def rendersSoon (d : Device) : Bool := rendersNow d || d.cmd.queue.any (fun p => p.opcode = 0x0003)

/-- Earliest offset for a ROUTE: past every crossfade of its destination that runs or will run (R138).
(log 141: DEDUCED, unsafe.) -/
def routeFloor (d : Device) (e : Env) (dest : Nat) : Nat :=
  let t := e.fn
  match destRoute d dest with
  | none => 0
  | some r =>
    if !rendersSoon d then 0
    else
      -- whether this frame's task of the destination, for input frame t − 1, has run
      let ran := if dest < 0x8000 then (objAt d dest).written
        else (outAt d (dest - 0x8000)).convIn.isSome || (outAt d (dest - 0x8000)).block3.isSome
      let now := if !d.pwr.rendering then 0
        else if r.app.src ≠ r.live.src then r.app.xf
        else if !ran && r.live.src ≠ r.prev.src then r.live.xf - 1
        else match r.fade with
          | some f => (f.m - f.q) - (if ran then 0 else 1)
          | none => 0
      let step := fun (a : Nat × RouteCfg) (p : Pend) =>
        if p.opcode = 0x0300 && !p.applied && argN p.d 0x20 2 = dest then
          let sel := argN p.d 0x24 1
          let new : RouteCfg := { a.2 with
            src := if bit sel 0 then argN p.d 0x22 2 else a.2.src
            xf := if bit sel 2 then max 1 (min 600 (argN p.d 0x26 2)) else a.2.xf }
          (if new.src ≠ a.2.src then max a.1 (offsetOf t p.af + new.xf) else a.1, new)
        else a
      (d.cmd.queue.foldl step (now, r.app)).1

/-- Frames that fill a gap of `n` labels (R96). -/
def gapFrames (n : Nat) : Nat := cdiv n 32

/-- Earliest offset for an OBJ_BULK change of an object: past the fill of every earlier decrease (R96).
(log 75: DEDUCED, unsafe.) -/
def bulkFloor (d : Device) (e : Env) (o : Nat) : Nat :=
  let x := objAt d o
  let back := if x.written then 0 else 1
  let gapF := match x.gap with | some g => gapFrames g.left - back | none => 0
  let prevF := if !x.written then gapFrames (x.bulkPrev - x.bulkLive) - 1 else 0
  let liveF := gapFrames (x.bulkLive - x.params.objBulk)
  let now := if d.pwr.rendering then max gapF (max prevF liveF) else 0
  let step := fun (a : Nat × Nat) (p : Pend) =>
    let mine := p.opcode = 0x0200 && !p.applied && argN p.d 0x20 2 = 0x0601
      && (argN p.d 0x22 1 = 2 || argN p.d 0x24 2 = o)
    if mine then
      let v := argN p.d 0x28 8
      (if v < a.2 then max a.1 (offsetOf e.fn p.af + gapFrames (a.2 - v)) else a.1, v)
    else a
  (d.cmd.queue.foldl step (now, x.params.objBulk)).1

/-- Earliest offset by the bounds of R28 other than the requested AF and the full frames, for a command without
members. (log 73: DEDUCED, unsafe.) -/
def floorOf (d : Device) (e : Env) (c : CmdDesc) (op w : Nat) : Nat :=
  let staging := if w = 0 then 2 else 2 + cdiv w (budgetB d.img.budget)
  let own := match op with
    | 0x0003 => 4
    | 0x0202 =>
      if argN c 0x20 1 ≠ 6 then 0
      else (loadFloors d e.fn 6 c.len.toNat (coefMembers d 6 (argN c 0x21 1) (argN c 0x22 2))).foldl
        (fun a p => max a p.2) 0
    | 0x0300 => routeFloor d e (argN c 0x20 2)
    | 0x0200 =>
      if argN c 0x20 2 = 0x0601 then
        (targetMembers d 1 (argN c 0x22 1) (argN c 0x24 2)).foldl (fun a o => max a (bulkFloor d e o)) 0
      else 0
    | _ => 0
  max staging own

/-- The decision of R28: the command's AF, its members' AFs, and the marks. -/
structure Plan where
  af : BitVec 32
  members : List Member := []
  skipped : Nat := 0
  late : Bool := false
  deferred : Bool := false
deriving DecidableEq, Repr

/-- Group masks as every GROUP_SET accepted so far leaves them at frame `a` (R172). (log 75: DEDUCED, unsafe.) -/
def groupsAt (d : Device) (a : BitVec 32) : Device :=
  let l := d.cmd.queue.filter (fun p => p.opcode = 0x0201 && !p.applied && !later p.af a)
  let ins := fun (acc : List Pend) (p : Pend) =>
    acc.takeWhile (fun q => !later q.af p.af) ++ [p] ++ acc.dropWhile (fun q => !later q.af p.af)
  forAll (l.foldl ins []) (fun p d => (applyGroup p d).dev) d

/-- The members that a swapping command has at offset `o`, by the membership of that frame (R172), each with the earliest
offset that its staging allows, and how many lack the block. -/
def memberFloors (d : Device) (t : BitVec 32) (c : CmdDesc) (op o : Nat) : List (Nat × Nat) × Nat :=
  let sm := swapMembers (groupsAt d (t + BitVec.ofNat 32 o)) c op
  (if op = 0x0202 then loadFloors d t (argN c 0x20 1) c.len.toNat sm.1 else sm.1.map (fun n => (n, 0)), sm.2)

/-- The least of the placed offsets, `base` where there is none. -/
def firstPlaced (base : Nat) (l : List (Nat × Nat)) : Nat := l.foldl (fun a m => min a m.2) ((l.headD (0, base)).2)

/-- The members of a swapping command, placed from offset `base` on, how many lack the block, and the command's offset. Where
the bounds move it past a GROUP_SET that changes the membership, the members of the later frame are placed anew
(R172). -/
def settle (d : Device) (t : BitVec 32) (c : CmdDesc) (op places : Nat) : Nat → Nat → List (Nat × Nat) × Nat × Nat
  | fuel, base =>
    let m := memberFloors d t c op base
    let placed := placeMembers d t places (m.1.map (fun x => (x.1, max base x.2)))
    let o := firstPlaced base placed
    match fuel with
    | 0 => (placed, m.2, o)
    | n + 1 =>
      if o = base || (memberFloors d t c op o).1.map (·.1) = m.1.map (·.1) then (placed, m.2, o)
      else settle d t c op places n o

/-- Decide the AF of a command that arrives at tick t. `fixed` is the AF that a mirror gives (R230).
(log 75: DEDUCED, unsafe.) -/
def plan (d : Device) (e : Env) (c : CmdDesc) (op : Nat) (fixed : Option (BitVec 32)) : Plan :=
  let t := e.fn
  let asap := c.cflags.getLsbD 0 || between 0x0500 0x0502 op
  let late := !asap && earlier c.af (t + 2)
  let req := if asap || late then 2 else (c.af - (t + 2)).toNat + 2
  let w := stageWork d c op
  let base := max req (floorOf d e c op w)
  let fuel := d.cmd.queue.length + (d.cmd.queue.map (fun p => p.members.length)).sum + 513
  let at_ := fun (o : Nat) => t + BitVec.ofNat 32 o
  match fixed with
  | some af =>
    let m := memberFloors d t c op (offsetOf t af)
    let placed := placeMembers d t fuel (m.1.map (fun x => (x.1, offsetOf t af)))
    let ms : List Member := placed.zipIdx.map (fun m => { idx := m.1.1, af := if m.2 = 0 then af else at_ m.1.2 })
    { af := af, members := ms, skipped := m.2 }
  | none =>
    let q := settle d t c op fuel (d.cmd.queue.length + 1) base
    if q.1.isEmpty then
      let o := firstOk (fun o => frameFree d (onePerFrame d op c) (at_ o)) fuel base
      { af := at_ o, skipped := q.2.1, late := late, deferred := o ≠ req }
    else
      let ms : List Member := q.1.map (fun m => { idx := m.1, af := at_ m.2 })
      { af := at_ q.2.2, members := ms, skipped := q.2.1, late := late, deferred := q.2.2 ≠ req }

/-! ## The device at a later frame -/

/-- Insert an offset in rising order, once. -/
def insOffset (x : Nat) : List Nat → List Nat
  | [] => [x]
  | y :: r => if x < y then x :: y :: r else if x = y then y :: r else y :: insOffset x r

/-- The device as the commands accepted so far leave it at frame AF: each applied at its own AF, in order.
(log 44: DEDUCED, unsafe.) -/
def futureAt (af : BitVec 32) (e : Env) (d : Device) : Device :=
  let d := { d with cmd := { d.cmd with queue := d.cmd.queue.map (fun p => { p with staged := true }) } }
  let afs := d.cmd.queue.flatMap (fun p => if p.applied then [] else p.af :: p.members.map (·.af))
  let offs := (afs.filter (fun a => !later a af)).foldl (fun l a => insOffset (offsetOf e.fn a) l) []
  forAll offs (fun o d => applyFrame { e with fn := e.fn + BitVec.ofNat 32 o } d) d

/-- The latest AF in the queue, or `af`. -/
def lastAf (af : BitVec 32) (d : Device) : BitVec 32 :=
  d.cmd.queue.foldl (fun a p => p.members.foldl (fun a m => laterOf a m.af) (laterOf a p.af)) af

/-- Commands that the state at their AF can refuse, judged at acceptance on that state. -/
def judged (op : Nat) : Bool := [0x0006, 0x0200, 0x0300, 0x0301, 0x0302, 0x0303, 0x0304].contains op

/-- An OBJ_BULK write steps further than W − 40 from what a member holds in `f` (R95). -/
def bulkStep (f : Device) (c : CmdDesc) : Bool :=
  let v := sext 64 (argN c 0x28 8)
  (targetMembers f 1 (argN c 0x22 1) (argN c 0x24 2)).any (fun o =>
    decide ((v - (objAt f o).params.objBulk).natAbs > winW (nObj f) - 40))

/-- What acceptance judges and the AF does not judge again: a route's source (R120), BULK_STEP, measured past every earlier
command (R95). -/
def judgeOnce (p : Pend) (f : Device) : Nat × List Nat :=
  let c := p.d
  if p.opcode = 0x0300 then ifBad (bit (argN c 0x24 1) 0 && !sourceOk f (argN c 0x22 2)) 0x010D
  else if p.opcode = 0x0200 && argN c 0x20 2 = 0x0601 then ifBad (bulkStep f c) 0x0110
  else (0, [])

/-- The refusal that the state at AF gives (R33, R39, R95, R120, R136, R146, R292). At RENDER_START the reserved chains must
be consistent (R205). (log 44: DEDUCED, unsafe.) -/
def judge (p : Pend) (e : Env) (d : Device) : Nat × List Nat :=
  let af := lastAf p.af { d with cmd := { d.cmd with queue := [p] } }
  if p.opcode = 0x0003 then
    let f := futureAt af e d
    ifBad (!(List.range 40).all (fun n => !chainReserved f n || decConsistent (cfg f).fs96 (decAt f n))) stRange
  else if !judged p.opcode then (0, [])
  else
    let bulk := p.opcode = 0x0200 && argN p.d 0x20 2 = 0x0601
    let f := futureAt (if bulk then lastAf af d else af) e d
    let r := applyCmd p (if p.members.isEmpty then none else some (p.members.map (·.idx))) { e with fn := af } f
    match r.status with
    | some c => if c ≥ 0x0100 then (c, r.detail) else judgeOnce p f
    | none => judgeOnce p f

/-! ## Acceptance -/

/-- DETAIL that acceptance fixes: the time of an EPOCH_SET's arrival, the margins of a CORE_OFFLINE's check (R33, R39,
R295), the margins of RENDER_START and CORE_ONLINE. -/
def acceptDetail (d : Device) (c : CmdDesc) (op : Nat) : List Nat :=
  let core := argN c 0x20 1
  let words := fun (k : Check) => k.margins.map (uext 32)
  match op with
  | 0x0501 => [(timeNs d).toNat]
  | 0x0006 =>
    if (cslotAt d core).st ≠ .available then []
    else match replacement d core with
      | none => words (scatter d core).1
      | some r =>
        let homes := (flowsOn d core).foldl (fun (m : SMap Nat) f => mset 0 m f (r + 1)) d.disp.homes
        words (budgetCheck { checkIn d with
          homes := homes
          avail := (List.range 64).filter (fun k => k = r || (k ≠ core && (cslotAt d k).st = .available)) })
  | 0x0007 => words (onlineCheck d core)
  | _ => []

/-- The limit unlock closes (R506). (log 77: DEDUCED, unsafe.) -/
def closeUnlock (d : Device) : Device := { d with jrn := { d.jrn with unlocked := false, openFor := 0, armed := false } }

/-- What a command changes at once when it is accepted: a core joins (R314), the hub of a RENDER_START becomes active
(R223), the spectra of a FIR load are background work (R306), the unlock of the limits closes (R220, R506), a FENCE holds the ring (R283), HANDOVER is announced (R248). -/
def onAccept (p : Pend) (e : Env) (d : Device) : Device :=
  let core := argN p.d 0x20 1
  match p.opcode with
  | 0x0002 => { d with cmd := { d.cmd with fence := some p.uid } }
  | 0x0003 =>
    if p.fromMirror || !paired d then d
    else
      let d := { d with pair := { d.pair with epoch := d.pair.peerEpoch + 1 } }
      setPairSt .active 0 e d
  | 0x0007 => setCoreSt core .joining 0 e d
  | 0x0202 => when (argN p.d 0x20 1 = 3) (enlistJob (.spectra p.uid) e) d
  | 0x0404 => closeUnlock d
  | 0x0506 => if p.fromMirror then d else sendDraw 8 (leBytes 4 p.af.toNat) e d
  | _ => d

/-- The 64 bytes of a command descriptor (R263). -/
def descBytes (op : Nat) (c : CmdDesc) : List Byte :=
  leBytes 2 op ++ [c.func, c.cflags] ++ leBytes 4 c.af.toNat ++ leBytes 4 c.tag.toNat ++ leBytes 4 c.rsv0.toNat
    ++ leBytes 8 c.addr.toNat ++ leBytes 4 c.len.toNat ++ leBytes 4 c.rsv1.toNat ++ sub c.args 0 32

/-- An accepted command of an active paired hub goes to the peer (R230). -/
def mirror (p : Pend) (e : Env) (d : Device) : Device :=
  if !paired d || !isActive d.pair || !d.pair.up || pairCol p.opcode p.d.func.toNat ≠ .m then d
  else
    let m := d.pair.mseq + 1
    let body := leBytes 4 m.toNat ++ leBytes 4 p.af.toNat ++ leBytes 4 p.ridx.toNat
      ++ leBytes 1 (ofBits [p.late, p.deferred]) ++ zeros 3 ++ descBytes p.opcode p.d
    let d := { d with pair := { d.pair with mseq := m, unacked := d.pair.unacked ++ [(m, body)] } }
    modPend p.uid (fun q => { q with mseq := some m }) (sendDraw 2 body e d)

/-- How many elements a load that B stages goes to: the members of a swap, the chains of a BLOCK 6 load. -/
def loadCount (d : Device) (c : CmdDesc) (members : Nat) : Nat :=
  if argN c 0x20 1 = 6 then (coefMembers d 6 (argN c 0x21 1) (argN c 0x22 2)).length else max 1 members

/-- The entry of an accepted command, before it stands in the queue. -/
def pendOf (op : Nat) (c : CmdDesc) (ridx : BitVec 32) (silent : Bool) (b : List Byte) (pl : Plan) (t : BitVec 32)
    (d : Device) : Pend :=
  let w := stageWork d c op
  let coef := op = 0x0202
  let n := loadCount d c pl.members.length
  let ms := if argN c 0x20 1 = 6 then coefMembers d 6 (argN c 0x21 1) (argN c 0x22 2) else pl.members.map (·.idx)
  let fir := coef && argN c 0x20 1 = 3
  { opcode := op, d := c, ridx := ridx, uid := d.cmd.nextUid, af := pl.af, late := pl.late, deferred := pl.deferred
    members := pl.members, skipped := pl.skipped
    clamped := if op = 0x0402 then (diagParse 0 0 b).2 else 0
    stageBy := t + BitVec.ofNat 32 (stageOffset d c op w ms), staged := w = 0 && !coef, operand := some b
    work := if coef then (if fir then 0 else 640 * n) else w
    cveWork := if fir then (pl.members.map (fun m => firWork (cfg d) m.idx)).sum else 0
    detail := acceptDetail d c op, silent := silent }

/-- The outcome of a command at acceptance: its refusal, or its entry. -/
def consider (op : Nat) (c : CmdDesc) (ridx : BitVec 32) (silent : Bool) (fixed : Option (BitVec 32)) (e : Env)
    (d : Device) : (Nat × List Nat) × Option Pend :=
  let r := refusal d op c silent fixed.isSome
  if r.1 ≠ 0 then (r, none)
  else
    let w := if op = 0x0202 && argN c 0x20 1 ≠ 3 then 640 * loadCount d c (swapMembers d c op).1.length else stageWork d c op
    if w ≠ 0 && budgetB d.img.budget = 0 then ((0x0107, [2, w, 0]), none)
    else
      let b : Option (List Byte) :=
        if readsNow op && cmdBytes d c op ≠ 0 then dmaRead e d c.addr.toNat (cmdBytes d c op) else some []
      let r := operandRefusal d c op b
      if r.1 ≠ 0 then (r, none)
      else
        let p := pendOf op c ridx silent (b.getD []) (plan d e c op fixed) e.fn d
        let r := if fixed.isSome then (0, []) else judge p e d
        if r.1 ≠ 0 then (r, none) else ((0, []), some p)

/-- An accepted command enters the queue; the counters of late and deferred commands count it (R294). -/
def enqueue (p : Pend) (e : Env) (d : Device) : Device :=
  let d := { d with cmd := { d.cmd with
    queue := d.cmd.queue ++ [p], nextUid := d.cmd.nextUid + 1
    lateCnt := if p.late then inc32 d.cmd.lateCnt else d.cmd.lateCnt
    deferCnt := if p.deferred then inc32 d.cmd.deferCnt else d.cmd.deferCnt } }
  mirror p e (onAccept p e d)

/-- The ACCEPT block of a command (R264, R265). -/
def acceptBlock (p : Pend) : ResultBlk :=
  { done := false, marks := marksOf p false, status := 0, opcode := p.opcode, func := p.d.func, tag := p.d.tag
    ridx := p.ridx, af := p.af, detail := [] }

/-- The DONE block of a refusal: its AF is the frame of refusal (R265). -/
def refuseBlock (op : Nat) (c : CmdDesc) (ridx : BitVec 32) (r : Nat × List Nat) (e : Env) : ResultBlk :=
  { done := true, marks := 0, status := r.1, opcode := op, func := c.func, tag := c.tag, ridx := ridx, af := e.fn
    detail := r.2, notify := c.cflags.getLsbD 1 }

/-- The ring engine reads one command from the CMD ring and accepts or refuses it (R264). A refused LIMIT_COMMIT closes the
unlock too (R506). (log 84: DEDUCED, safe.) -/
def takeCmd (op : Nat) (c : CmdDesc) (e : Env) (d : Device) : Device :=
  let ridx := (ringAt d 0).didx
  let d := moveRing 0 1 false { d with cmd := { d.cmd with readNow := d.cmd.readNow + 1 } }
  match consider op c ridx false none e d with
  | (_, some p) => enqueue p e (pushResult (acceptBlock p) d)
  | (r, none) => when (op = 0x0404) closeUnlock (pushResult (refuseBlock op c ridx r e) d)

/-- The ring engine may read a further command in this frame: the ring runs, no FENCE holds it and 256 have not been read
(R264, R283). -/
def ringTakes (d : Device) : Bool :=
  ringLive d 0 && d.cmd.fence.isNone && decide (d.cmd.readNow < 256)

/-- Accepted commands that wait for their decided AF (R30): CMD_HELD of the status line (R261). -/
def cmdHeld (d : Device) : Nat := (d.cmd.queue.filter (fun p => !p.applied)).length

/-- A further command has room: fewer than 4,096 wait for their AF (R30), and the RESULT ring runs with room for the blocks
that wait on chip and for the ACCEPT or DONE block of this one (R264). -/
def cmdRoom (d : Device) : Bool :=
  decide (cmdHeld d < 4096) && ringLive d 1 && decide (d.cmd.results.length < roomOf (ringAt d 1))

/-- A command finds no room: the engine stops at it and says so once (R30, R264). -/
def holdRing (e : Env) (d : Device) : Device :=
  if d.cmd.held then d else raise 0x1001 0x00 (leBytes 1 0) e { d with cmd := { d.cmd with held := true } }

/-- The engine resumes with the first command that finds room again (R30). -/
def resumeRing (e : Env) (d : Device) : Device :=
  if !d.cmd.held then d else raise 0x1001 0x00 (leBytes 1 1) e { d with cmd := { d.cmd with held := false } }

/-- A host command: the ring engine reads it if it can take one. (log 84: DEDUCED, safe.) -/
def hostCmd (op : Nat) (c : CmdDesc) (e : Env) (d : Device) : Device :=
  if !ringTakes d then d
  else if !cmdRoom d then holdRing e d
  else takeCmd op c e (resumeRing e d)

/-- A submission by register form is accepted, or sets REG_REFUSED (R509). -/
def takeForm (op : Nat) (c : CmdDesc) (e : Env) (d : Device) : Device :=
  match consider op c 0 true none e d with
  | (_, some p) => enqueue p e d
  | (_, none) => { d with clk := { d.clk with regRefused := true } }

/-- The submissions that wait, in the order SRV_GO, EP_GO, CREF (R509). -/
def takeForms (e : Env) (d : Device) : Device :=
  let l := d.cmd.srv.map (fun c => (0x0500, c)) ++ d.cmd.ep.map (fun c => (0x0501, c))
    ++ d.cmd.cref.map (fun c => (0x0502, c))
  forAll l (fun (p : Nat × CmdDesc) d => takeForm p.1 p.2 e d) { d with cmd := { d.cmd with srv := [], ep := [], cref := [] } }

end Sys2Proof.Machine
end

