-- ==== Sys2Proof/Machine/Commands.lean ====
section
/-! DEFINITION. The host commands as rows of the table: the ring engine reads the command's descriptor from the CMD ring
and accepts or refuses it (R263, R264); the device applies it at its decided AF (`applyCmd`). And the completion of
staging (R38, R164). -/
namespace Sys2Proof.Machine

/-- The opcode and the descriptor that 64 bytes of the CMD ring spell (R263). -/
def cmdOf (b : List Byte) : Nat × CmdDesc :=
  (fld b 0 2,
   { func := nth 0 b 2, cflags := nth 0 b 3, af := BitVec.ofNat 32 (fld b 4 4), tag := BitVec.ofNat 32 (fld b 8 4)
     rsv0 := BitVec.ofNat 32 (fld b 0xC 4), addr := BitVec.ofNat 64 (fld b 0x10 8), len := BitVec.ofNat 32 (fld b 0x18 4)
     rsv1 := BitVec.ofNat 32 (fld b 0x1C 4), args := sub b 0x20 32 })

/-- A host command of opcode `op` in the CMD ring. (log 84: DEDUCED, safe.) -/
def hostRow (op : Nat) (c : CmdDesc) (h : HostView) (s : State) : Host.Outcome State Fault Refusal :=
  actH h (hostCmd op c) s

/-- NOP (R280): nothing but its completion at AF. -/
def execNop (c : CmdDesc) (h : HostView) (s : State) : Host.Outcome State Fault Refusal :=
  hostRow 0x0001 c h s

/-- FENCE (R283): acceptance stops until every earlier command has posted its DONE. -/
def execFence (c : CmdDesc) (h : HostView) (s : State) : Host.Outcome State Fault Refusal :=
  hostRow 0x0002 c h s

/-- RENDER_START (R44, R223, R282): staged by t + 4. -/
def execRenderStart (c : CmdDesc) (h : HostView) (s : State) : Host.Outcome State Fault Refusal :=
  hostRow 0x0003 c h s

/-- RENDER_STOP (R284). -/
def execRenderStop (c : CmdDesc) (h : HostView) (s : State) : Host.Outcome State Fault Refusal :=
  hostRow 0x0004 c h s

/-- FUNC_RESET (R496): FUNC names the function. -/
def execFuncReset (c : CmdDesc) (h : HostView) (s : State) : Host.Outcome State Fault Refusal :=
  hostRow 0x0005 c h s

/-- CORE_OFFLINE (R39, R312). -/
def execCoreOffline (c : CmdDesc) (h : HostView) (s : State) : Host.Outcome State Fault Refusal :=
  hostRow 0x0006 c h s

/-- CORE_ONLINE (R282, R314). -/
def execCoreOnline (c : CmdDesc) (h : HostView) (s : State) : Host.Outcome State Fault Refusal :=
  hostRow 0x0007 c h s

/-- RING_SETUP (R256, R257). -/
def execRingSetup (c : CmdDesc) (h : HostView) (s : State) : Host.Outcome State Fault Refusal :=
  hostRow 0x0008 c h s

/-- TRACE_CTL (R319). -/
def execTraceCtl (c : CmdDesc) (h : HostView) (s : State) : Host.Outcome State Fault Refusal :=
  hostRow 0x0009 c h s

/-- QUERY (R293, R294). -/
def execQuery (c : CmdDesc) (h : HostView) (s : State) : Host.Outcome State Fault Refusal :=
  hostRow 0x000A c h s

/-- OBJ_MOTION (R286). -/
def execObjMotion (c : CmdDesc) (h : HostView) (s : State) : Host.Outcome State Fault Refusal :=
  hostRow 0x0100 c h s

/-- SPK_COMMIT (R61 to R63). -/
def execSpkCommit (c : CmdDesc) (h : HostView) (s : State) : Host.Outcome State Fault Refusal :=
  hostRow 0x0101 c h s

/-- TRI_COMMIT (R64, R65). -/
def execTriCommit (c : CmdDesc) (h : HostView) (s : State) : Host.Outcome State Fault Refusal :=
  hostRow 0x0102 c h s

/-- DIRTAB_LOAD (R66). -/
def execDirtabLoad (c : CmdDesc) (h : HostView) (s : State) : Host.Outcome State Fault Refusal :=
  hostRow 0x0103 c h s

/-- DIRECT_LOAD (R81). -/
def execDirectLoad (c : CmdDesc) (h : HostView) (s : State) : Host.Outcome State Fault Refusal :=
  hostRow 0x0104 c h s

/-- PARAM_WRITE (R172 to R174, R287 to R290). -/
def execParamWrite (c : CmdDesc) (h : HostView) (s : State) : Host.Outcome State Fault Refusal :=
  hostRow 0x0200 c h s

/-- GROUP_SET (R172). -/
def execGroupSet (c : CmdDesc) (h : HostView) (s : State) : Host.Outcome State Fault Refusal :=
  hostRow 0x0201 c h s

/-- COEF_LOAD (R161, R164, R291). -/
def execCoefLoad (c : CmdDesc) (h : HostView) (s : State) : Host.Outcome State Fault Refusal :=
  hostRow 0x0202 c h s

/-- ROUTE (R136 to R138). -/
def execRoute (c : CmdDesc) (h : HostView) (s : State) : Host.Outcome State Fault Refusal :=
  hostRow 0x0300 c h s

/-- STREAM_RX (R292). -/
def execStreamRx (c : CmdDesc) (h : HostView) (s : State) : Host.Outcome State Fault Refusal :=
  hostRow 0x0301 c h s

/-- STREAM_TX (R292). -/
def execStreamTx (c : CmdDesc) (h : HostView) (s : State) : Host.Outcome State Fault Refusal :=
  hostRow 0x0302 c h s

/-- SINK_SET (R292). -/
def execSinkSet (c : CmdDesc) (h : HostView) (s : State) : Host.Outcome State Fault Refusal :=
  hostRow 0x0303 c h s

/-- DEC_RUN (R133). -/
def execDecRun (c : CmdDesc) (h : HostView) (s : State) : Host.Outcome State Fault Refusal :=
  hostRow 0x0304 c h s

/-- PCH_START (R194). -/
def execPchStart (c : CmdDesc) (h : HostView) (s : State) : Host.Outcome State Fault Refusal :=
  hostRow 0x0400 c h s

/-- PCH_STOP (R194). -/
def execPchStop (c : CmdDesc) (h : HostView) (s : State) : Host.Outcome State Fault Refusal :=
  hostRow 0x0401 c h s

/-- PCH_DIAG (R195, R196). -/
def execPchDiag (c : CmdDesc) (h : HostView) (s : State) : Host.Outcome State Fault Refusal :=
  hostRow 0x0402 c h s

/-- PCH_CLEAR (R194). -/
def execPchClear (c : CmdDesc) (h : HostView) (s : State) : Host.Outcome State Fault Refusal :=
  hostRow 0x0403 c h s

/-- LIMIT_COMMIT (R220, R221). -/
def execLimitCommit (c : CmdDesc) (h : HostView) (s : State) : Host.Outcome State Fault Refusal :=
  hostRow 0x0404 c h s

/-- SERVO_OFFSET (R281, R438). -/
def execServoOffset (c : CmdDesc) (h : HostView) (s : State) : Host.Outcome State Fault Refusal :=
  hostRow 0x0500 c h s

/-- EPOCH_SET (R281, R430). -/
def execEpochSet (c : CmdDesc) (h : HostView) (s : State) : Host.Outcome State Fault Refusal :=
  hostRow 0x0501 c h s

/-- CLOCK_REF (R281, R444). -/
def execClockRef (c : CmdDesc) (h : HostView) (s : State) : Host.Outcome State Fault Refusal :=
  hostRow 0x0502 c h s

/-- PAIR_JOIN (R223). -/
def execPairJoin (c : CmdDesc) (h : HostView) (s : State) : Host.Outcome State Fault Refusal :=
  hostRow 0x0503 c h s

/-- PAIR_REJOIN (R241). -/
def execPairRejoin (c : CmdDesc) (h : HostView) (s : State) : Host.Outcome State Fault Refusal :=
  hostRow 0x0504 c h s

/-- PAIR_WITHDRAW (R240, R280). -/
def execPairWithdraw (c : CmdDesc) (h : HostView) (s : State) : Host.Outcome State Fault Refusal :=
  hostRow 0x0505 c h s

/-- PAIR_HANDOVER (R248). -/
def execPairHandover (c : CmdDesc) (h : HostView) (s : State) : Host.Outcome State Fault Refusal :=
  hostRow 0x0506 c h s

/-- The elements that a coefficient load goes to. -/
def loadTakers (d : Device) (p : Pend) : List Nat :=
  if p.members.isEmpty then coefMembers d (argN p.d 0x20 1) (argN p.d 0x21 1) (argN p.d 0x22 2) else p.members.map (·.idx)

/-- The input frame after a swap's AF has been rendered (R165): the staging bank of the block is free again.
(log 119: DEDUCED, unsafe.) -/
def swapOver (d : Device) (fn : BitVec 32) (s : Nat × Nat × BitVec 32) : Bool :=
  !d.pwr.rendering || later fn (s.2.2 + 2) || (fn = s.2.2 + 2 && between 1 3 s.1 && (outAt d s.2.1).blk8.isSome)

/-- The staging of a load may begin (R165): for none of its elements does an earlier load of the block wait for its AF, or
its swap still hold the staging bank. (log 119: DEDUCED, unsafe.) -/
def loadMayStage (p : Pend) (e : Env) (d : Device) : Bool :=
  let block := argN p.d 0x20 1
  let ms := loadTakers d p
  let before := d.cmd.queue.takeWhile (fun q => q.uid ≠ p.uid)
  !before.any (fun q => q.opcode = 0x0202 && argN q.d 0x20 1 = block && !q.applied
      && (if q.members.isEmpty then (loadTakers d q).any ms.contains
          else q.members.any (fun m => !m.applied && ms.contains m.idx)))
    && d.chn.swapped.all (fun s => s.1 ≠ block || !ms.contains s.2.1 || swapOver d e.fn s)

/-- First word of the FIR staging area (R164): within the built-in areas of the shared store (R363).
(log 120: DESIGN CHOICE, safe.) -/
def firArea (d : Device) : Nat :=
  d.img.ssLow + Config.firPlace % (0x100000 - d.img.ssLow - 65536 + 1)

/-- A FIR set arrives in the staging area of the shared store, two taps to a word, up to its first bad tap (R164). -/
def firFetch (b : List Byte) (bad : Option (Nat × Nat)) (d : Device) : Device :=
  let n := match bad with | some (i, r) => if r = 1 || r = 5 then i else 0 | none => fld b 4 4
  let ws := packHalves ((entries 8 n (b.drop 64)).map (fun x => f36At x 0))
  let a := firArea d
  cleanStore a ws.length { d with mem := { d.mem with store := msets 0 d.mem.store (ws.zipIdx.map (fun p => (a + p.2, p.1))) } }

/-- The staging of a coefficient load (R161, R164): the set is checked as it arrives; a good one enters the staging bank of
every element. -/
def stageLoad (p : Pend) (b : Option (List Byte)) (d : Device) : Device :=
  let block := argN p.d 0x20 1
  let ms := (loadTakers d p).filter (fun n => !blockLacks d block n)
  match b with
  | none => modPend p.uid (fun q => { q with staged := true, operand := none, work := 0, cveWork := 0 }) d
  | some x =>
    let bad := coefCheck d block ms x
    let d := modPend p.uid (fun q => { q with staged := true, operand := some [], bad := bad, work := 0, cveWork := 0 }) d
    let d := when (block = 3) (firFetch x bad) d
    when bad.isNone (forAll ms (fun n d => coefStage block n x d)) d

/-- STAGING_DONE (R38, R164): the staging of the oldest accepted command of an index completes; its operand is what host
memory held (R262). (log 78: DEDUCED, safe.) -/
def stagingDone (ridx : BitVec 32) (e : Env) (d : Device) : Device :=
  match d.cmd.queue.find? (fun p => p.ridx = ridx && !p.staged && !p.applied) with
  | none => d
  | some p =>
    let n := cmdBytes d p.d p.opcode
    let b := if n = 0 then some [] else dmaRead e d p.d.addr.toNat n
    if p.opcode ≠ 0x0202 then
      modPend p.uid (fun q => { q with staged := true, operand := b, work := 0, cveWork := 0 }) d
    else when (loadMayStage p e d) (stageLoad p b) d

def execStagingDone (ridx : BitVec 32) (h : HostView) (s : State) : Host.Outcome State Fault Refusal :=
  actH h (stagingDone ridx) s

end Sys2Proof.Machine
end

