-- ==== Sys2Proof/Machine/Rings.lean ====
section
/-! DEFINITION. The ring engine (chapter 08): the doorbell fetch and what follows it, results, events, trace, telemetry,
audio rings, write-back with its interrupts, and the start and stop of the engine. -/
namespace Sys2Proof.Machine

/-! ## Interrupts (R251, R272) -/

/-- The message of a vector is sent, or stays pending while the vector is masked (R272).
(log 79: DEDUCED, unsafe; log 82: DESIGN CHOICE, safe.) -/
def sendMsi (vec : Nat) (d : Device) : Device :=
  let b := BitVec.ofNat 32 (2 ^ (vec % 32))
  if d.ring.msixMask &&& b ≠ 0 then { d with ring := { d.ring with msixPend := d.ring.msixPend ||| b } }
  else { d with ring := { d.ring with msixSent := d.ring.msixSent ++ [vec] } }

/-- VECTOR_UNMASK: a pending message is sent (R272). (log 82: DESIGN CHOICE, safe.) -/
def vectorUnmask (vec : Nat) (d : Device) : Device :=
  let b := BitVec.ofNat 32 (2 ^ (vec % 32))
  let was := d.ring.msixPend &&& b ≠ 0
  let d := { d with ring := { d.ring with msixMask := d.ring.msixMask &&& ~~~b, msixPend := d.ring.msixPend &&& ~~~b } }
  when was (sendMsi vec) d

def execVectorUnmask (vec : Nat) (s : State) : Host.Outcome State Fault Refusal :=
  hostAct (fun _ d => when (vec < 32) (vectorUnmask vec) d) s

/-- A ring's interrupt condition at a write-back (R272): its count, its delay, or an entry that interrupts whatever the
moderation. -/
def msiDue (q : Ring) : Bool :=
  q.irq && q.unsig ≠ 0 && (q.unsig ≥ q.modCount || q.unsigAge ≥ q.modFrames || q.urgent)

/-- The rings that one message of ring `r`'s write-back serves (R272): `r` itself, and every running ring of the same vector
whose entries the index table already covers and whose condition holds. (log 117: DEDUCED, unsafe.) -/
def msiServes (r : Nat) (q : Ring) (k : Nat) (x : Ring) : Bool :=
  k = r || (x.run && !x.dirty && x.vec = q.vec && msiDue x)

/-- DIDX_WRITEBACK (R261, R272): the index of a running ring goes to the device index table; where its interrupt is due, one
message follows for all the rings that it serves, and their counts clear. (log 79: DEDUCED, unsafe.)
(log 117: DEDUCED, unsafe.) -/
def didxWriteback (r : Nat) (d : Device) : Device :=
  let q := ringAt d r
  if r ≥ 128 || !d.ring.go || !d.ring.busMaster || d.ring.d3hot || !q.run then d
  else
    let d := post (d.ring.devBase.toNat + 4 * r) (leBytes 4 q.didx.toNat) d
    let d := setRing r { q with dirty := false } d
    if !msiDue q then d
    else
      let d := sendMsi q.vec d
      { d with ring := { d.ring with rings := mmap {} (fun k (x : Ring) =>
          if msiServes r q k x then { x with unsig := 0, unsigAge := 0, urgent := false } else x) d.ring.rings } }

def execDidxWriteback (ring : Nat) (s : State) : Host.Outcome State Fault Refusal :=
  act (fun _ d => didxWriteback ring d) s

/-- The status line of a tick (R261). -/
def statusLine (e : Env) (d : Device) : Device :=
  if !d.ring.go then d
  else
    let mask := ofBits ((List.range 128).map (fun r => (ringAt d r).fault))
    post (d.ring.devBase.toNat + 0x200)
      (leBytes 4 e.fn.toNat ++ leBytes 4 (timeNs d).toNat ++ leBytes 4 d.ring.dbMiss ++ leBytes 4 d.ring.hbAge
        ++ leBytes 4 (cmdHeld d) ++ zeros 12 ++ leBytes 16 mask ++ zeros 16) d

/-! ## Faults (R254, R262) -/

/-- A descriptor read of the CMD or META ring failed: it is tried again at the next tick (R262). -/
def readFailed (r : Nat) (d : Device) : Device := modRing r (fun q => { q with retries := q.retries + 1 }) d

/-- RING_FAULT (R262): after the first failure and three further ticks the ring stops in FAULT.
(log 83: DEDUCED, unsafe.) -/
def ringFault (r : Nat) (e : Env) (d : Device) : Device :=
  let q := ringAt d r
  if r ≥ 128 || q.fault || q.retries < 4 then d
  else
    let d := setRing r { q with fault := true } d
    let d := raise 0x3006 0x00 (leBytes 1 r ++ leBytes 1 1) e d
    when (r = 1 || r = 2) (sendMsi d.ring.errVec) d

def execRingFault (ring : Nat) (s : State) : Host.Outcome State Fault Refusal := act (ringFault ring) s

/-! ## Results (R264 to R268) -/

/-- The data area of a result, before its DONE block (R267). -/
def postArea (seq opcode : Nat) (a : Area) (d : Device) : Device :=
  let d := post a.addr (leBytes 4 seq) d
  let d := post (a.addr + 4)
    (leBytes 2 opcode ++ zeros 2 ++ leBytes 4 a.payload.length ++ leBytes 4 a.fn.toNat ++ a.payload) d
  post (a.addr + a.len - 8) (leBytes 4 seq ++ zeros 4) d

/-- Bytes 0x04 to 0x3B of a result block (R265). -/
def resultBody (b : ResultBlk) (e : Env) : List Byte :=
  leBytes 1 (if b.done then 2 else 1) ++ [b.marks] ++ leBytes 2 b.status ++ leBytes 2 b.opcode
    ++ [b.func, 0] ++ leBytes 4 b.tag.toNat ++ leBytes 4 b.ridx.toNat ++ leBytes 4 b.af.toNat ++ leBytes 4 e.fn.toNat
    ++ zeros 4 ++ ((List.range 6).flatMap (fun i => leBytes 4 (nth 0 b.detail i))) ++ zeros 4

/-- A result block is written in three steps: SEQ, bytes 0x04 to 0x3B, SEQ_T (R266). -/
def postResult (a seq : Nat) (b : ResultBlk) (e : Env) (d : Device) : Device :=
  post (a + 0x3C) (leBytes 4 seq) (post (a + 4) (resultBody b e) (post a (leBytes 4 seq) d))

/-- RESULT_WRITE (R264 to R266): the oldest block that waits is written once the RESULT ring has room. -/
def resultWrite (e : Env) (d : Device) : Device :=
  match d.cmd.results with
  | [] => d
  | b :: rest =>
    let r := ringAt d 1
    if !ringLive d 1 || roomOf r = 0 then d
    else
      let seq := (r.didx + 1).toNat
      let d := { d with cmd := { d.cmd with results := rest } }
      let d := match b.area with | some a => postArea seq b.opcode a d | none => d
      fenceCheck e (moveRing 1 1 b.notify (postResult (posAddr r r.didx) seq b e d))

def execResultWrite (s : State) : Host.Outcome State Fault Refusal := act resultWrite s

/-! ## Events (R269, R270) -/

/-- An event slot (R269). -/
def eventBytes (v : Event) : List Byte :=
  leBytes 2 v.code ++ [v.func] ++ leBytes 3 (v.fn.toNat % 16777216) ++ leBytes 4 v.timeNs.toNat ++ sub v.detail 0 6

/-- EVENT_DESCRIPTOR_WRITE (R269, R270): up to four events; what must come first comes first, then EVENTS_LOST. -/
def eventWrite (e : Env) (d : Device) : Device :=
  let t := d.evt
  let lost : List Event := if t.lostNow = 0 then [] else
    [{ code := 0x100D, func := 0, fn := e.fn, timeNs := timeNs d, detail := leBytes 4 t.lostNow ++ zeros 2 }]
  let all := t.first ++ lost ++ t.store
  let r := ringAt d 2
  if all.isEmpty || !ringLive d 2 || roomOf r = 0 then d
  else
    let now := all.take 4
    let d := { d with evt := { t with
      first := t.first.drop 4
      lostNow := if t.first.length ≥ 4 then t.lostNow else 0
      store := t.store.drop (4 - min 4 (t.first.length + lost.length)) } }
    let bytes := now.flatMap eventBytes
    moveRing 2 1 (now.any (fun v => v.code / 0x1000 ≥ 3)) (post (posAddr r r.didx) (sub bytes 0 64) d)

def execEventDescriptorWrite (s : State) : Host.Outcome State Fault Refusal := act eventWrite s

/-! ## Trace (R271, R317, R319) -/

def execTraceDescriptorWrite (s : State) : Host.Outcome State Fault Refusal := act (fun _ d => traceWrite d) s

/-! ## Telemetry (R178, R216, R275, R276) -/

/-- TEL_INTERVAL of the TELEM ring (R256). -/
def telInterval (d : Device) : Nat :=
  let v := fld (ringAt d 5).arg 0 2
  if v = 0 then 60 else max 6 (min 6000 v)

/-- A record is due at this tick (R275). (log 40: DEDUCED, unsafe.) -/
def telTick (e : Env) (d : Device) : Device :=
  when ((ringAt d 5).run && e.fn.toNat % telInterval d = 0)
    (fun d => { d with ring := { d.ring with telDue := true } }) d

/-- Mean of a sum of squares. (log 49: DEDUCED, unsafe.) -/
def meanSq (s : F36) (n : Nat) : F36 := if n = 0 then 0 else fdiv s (fint n)

/-- The descriptors of a record, without the 8 bytes that all share: type, index, the rest (R275). -/
def telParts (e : Env) (d : Device) : List (Nat × Nat × List Byte) :=
  let chans := pchsConfigured d
  let first := d.ring.telLast.getD (e.fn - BitVec.ofNat 32 (telInterval d))
  let head := leBytes 4 first.toNat ++ leBytes 4 (e.fn - 1).toNat ++ leBytes 4 (timeNs d).toNat ++ leBytes 2 (nOut d)
    ++ leBytes 2 chans.length ++ leBytes 4 d.ring.telSkipped
  let outs := (List.range (nOut d)).map (fun n =>
    let o := outAt d n
    (2, n, f36Field o.peak ++ f36Field (meanSq o.sumSq o.samples) ++ f36Field o.minGain ++ leBytes 4 o.clip
      ++ leBytes 4 o.overruns))
  let pchs := chans.flatMap (fun n =>
    let p := pchAt d n
    let g := railGroup d n
    let z := fsqrt (fdiv p.sumV p.sumI)
    [(3, n, [fsqrt (meanSq p.sumV p.nSum), p.pkV, fsqrt (meanSq p.sumI p.nSum), p.pkI, z, p.tc, p.tm].flatMap f36Field),
     (4, n, [p.reMeas, p.protPk, p.protMs, fmin ((railAt d g).t.getD (railMin d g)) (railCeil d g), railVolts d g].flatMap f36Field
        ++ leBytes 1 (pchNum p.st) ++ leBytes 1 p.rc ++ leBytes 1 g)])
  [(1, telemLen d, head)] ++ outs ++ pchs ++ [(5, 0, [])]

/-- The meters restart (R178, R216). -/
def telRestart (e : Env) (skipped : Nat) (d : Device) : Device :=
  let d := { d with chn := { d.chn with outs := mmap {} (fun _ (o : OutState) =>
    { o with peak := 0, sumSq := 0, samples := 0, minGain := fOne, clip := 0 }) d.chn.outs } }
  let d := { d with psc := { d.psc with pch := mmap {} (fun _ (p : Pch) =>
    { p with sumV := 0, sumI := 0, pkV := 0, pkI := 0, nSum := 0 }) d.psc.pch } }
  { d with ring := { d.ring with telLast := some e.fn, telSkipped := skipped, telDue := false } }

/-- TELEMETRY_RECORD (R275, R276): the whole record, or none. (log 40: DEDUCED, unsafe.) -/
def telemetry (e : Env) (d : Device) : Device :=
  let r := ringAt d 5
  if !d.ring.telDue then d
  else if !ringLive d 5 || roomOf r < telemLen d then telRestart e (add32 d.ring.telSkipped 1) d
  else
    let parts := telParts e d
    let seq := (r.didx + 1).toNat
    let d := forAll parts.zipIdx (fun p d =>
      let b := leBytes 1 p.1.1 ++ [0] ++ leBytes 2 p.1.2.1 ++ leBytes 4 seq ++ p.1.2.2
      post (posAddr r (r.didx + BitVec.ofNat 32 p.2)) (sub b 0 64) d) d
    telRestart e 0 (moveRing 5 parts.length false d)

def execTelemetryRecord (s : State) : Host.Outcome State Fault Refusal := act telemetry s

/-! ## Audio rings (R8, R127, R128, R274) -/

/-- Buffer length of an audio ring (R127). -/
def audioLen (d : Device) (r : Ring) : Nat := cdiv (nSmp d * ringCh r * ringB r) 64 * 64

/-- The PCM of a buffer: sample i of channel c at (i × CH + c) × B; a 4-byte container holds it in its upper 24 bits
(R8, R127). -/
def audioIn (d : Device) (r : Ring) (b : List Byte) : List Int :=
  let w := ringB r
  (List.range (nSmp d * ringCh r)).map (fun i => sext 24 (fld b (i * w + (w - 3)) 3))

/-- One entry of an input ring (R128, R262, R274): none where it waits for its frame, else the ring after it.
(log 80: DEDUCED, unsafe.) -/
def ainEntry (h : Nat) (e : Env) (d : Device) : Option Device :=
  let n := 16 + h
  let r := ringAt d n
  let a := mget {} d.ring.ain h
  let take := fun (x : AinRing) (d : Device) =>
    some (moveRing n 1 false { d with ring := { d.ring with ain := mset {} d.ring.ain h x } })
  match readEntry e d n r.didx with
  | none => take a d
  | some b =>
    let k : BitVec 32 := BitVec.ofNat 32 (fld b 0xC 4)
    let past := earlier k e.fn || (match a.expect with | some x => earlier k x | none => false)
    if fld b 0 8 % 64 ≠ 0 || fld b 8 4 ≠ audioLen d r then take a (countBad n 1 d)
    else if past then take { a with late := inc32 a.late } d
    else if later k (e.fn + 32) then take { a with early := inc32 a.early } d
    else if k ≠ e.fn then none
    else match dmaRead e d (fld b 0 8) (fld b 8 4) with
      | none => take { a with expect := some (k + 1) } d
      | some x => take { a with held := a.held ++ [(k, audioIn d r x)], expect := some (k + 1) } d

/-- The covered entries of an input ring, in ring order, up to the first that waits for a later frame.
(log 80: DEDUCED, unsafe.) -/
def ainRead (h : Nat) (e : Env) : Nat → Device → Device
  | 0, d => d
  | n + 1, d =>
    if !ringLive d (16 + h) || covered (ringAt d (16 + h)) = 0 then d
    else match ainEntry h e d with
      | none => d
      | some d => ainRead h e n d

/-- The channels of an output frame for a device-to-host ring (R148, R274). -/
def aoutChan (d : Device) (ring c : Nat) : List Int :=
  match sinkOut d.chn.sinks2 2 ring c with
  | some n => if d.pwr.rendering then (outAt d n).emitPcm else []
  | none => []

/-- Output frame `k` goes into the next posted buffer of ring 32 + h, or is dropped (R274). A descriptor that cannot be
used is consumed and the frame dropped. (log 80: DEDUCED, unsafe.) -/
def aoutWrite (k : BitVec 32) (h : Nat) (e : Env) (d : Device) : Device :=
  let n := 32 + h
  let r := ringAt d n
  let gap := mget 0 d.ring.aoutGap h
  let setGap := fun (g : Nat) (d : Device) => { d with ring := { d.ring with aoutGap := mset 0 d.ring.aoutGap h g } }
  if !r.run || r.fault then d
  else if !ringLive d n || covered r = 0 then setGap (inc16 gap) d
  else match readEntry e d n r.didx with
    | none => setGap (inc16 gap) d
    | some b =>
      if fld b 0 8 % 64 ≠ 0 || fld b 8 4 ≠ audioLen d r then setGap (inc16 gap) (moveRing n 1 false (countBad n 1 d))
      else
        let ch := ringCh r
        let w := ringB r
        let rows := (List.range ch).map (aoutChan d n)
        let data := (List.range (nSmp d)).flatMap (fun i => rows.flatMap (fun l =>
          zeros (w - 3) ++ leBytes 3 (uext 24 (nth 0 l i))))
        let d := post (fld b 0 8) (sub data 0 (audioLen d r)) d
        let tail := leBytes 4 k.toNat ++ leBytes 1 (if gap = 0 then 0 else 1) ++ [0] ++ leBytes 2 gap
        setGap 0 (moveRing n 1 false (post (posAddr r r.didx + 0xC) tail d))

/-! ## CMD and META (R262, R264, R273) -/

/-- The ring engine reads covered CMD entries in ring order (R264). -/
def cmdRead (e : Env) : Nat → Device → Device
  | 0, d => d
  | n + 1, d =>
    if !ringTakes d || covered (ringAt d 0) = 0 then d
    else if !cmdRoom d then holdRing e d
    else match readEntry e d 0 (ringAt d 0).didx with
      | none => readFailed 0 d
      | some b =>
        let c := cmdOf b
        let d := modRing 0 (fun q => { q with retries := 0 }) (resumeRing e d)
        cmdRead e n (takeCmd c.1 c.2 e d)

/-- The ring engine reads covered META entries, up to 2 × N_OBJ in a frame (R273). -/
def metaRead (e : Env) : Nat → Device → Device
  | 0, d => d
  | n + 1, d =>
    if !ringLive d 4 || covered (ringAt d 4) = 0 || d.ring.metaRead ≥ 2 * nObj d then d
    else match readEntry e d 4 (ringAt d 4).didx with
      | none => readFailed 4 d
      | some b =>
        let d := modRing 4 (fun q => { q with retries := 0 }) d
        let d := moveRing 4 1 false { d with ring := { d.ring with metaRead := d.ring.metaRead + 1 } }
        metaRead e n (recordIn .ring 0 (sub b 0 32) e d)

/-! ## The doorbell (R22, R254, R258 to R260) -/

/-- Rings of class D (R253). -/
def classD (r : Nat) : Bool := r = 1 || r = 2 || r = 3 || r = 5

/-- A fetched HIDX: taken where the ring's invariant holds, counted and reported where not (R254). A stopped ring holds
it for its next start. (log 79: DEDUCED, unsafe.) -/
def takeHidx (r : Nat) (v : BitVec 32) (e : Env) (d : Device) : Device :=
  let q := ringAt d r
  let span := if classD r then (q.didx - v).toNat else (v - q.didx).toNat
  if !q.run || span ≤ q.size then setRing r { q with hidx := v } d
  else
    raise 0x3006 0x00 (leBytes 1 r ++ leBytes 1 0) e (setRing r { q with idxBad := inc32 q.idxBad } d)

/-- The indices of a successful fetch: rings 0 to 5 from the doorbell block, 16 to 127 from the lines that LINE_MASK
names; none where a read fails (R255, R258, R259). (log 83: DEDUCED, unsafe.) -/
def fetched (e : Env) (d : Device) : Option (BitVec 32 × List (Nat × BitVec 32)) :=
  let a := d.ring.dbBase.toNat
  match dmaRead e d a 64 with
  | none => none
  | some b =>
    let own := (List.range 6).map (fun r => (r, BitVec.ofNat 32 (fld b (8 + 4 * r) 4)))
    let lines := (List.range 8).filter (fun j => j ≠ 0 && bit (fld b 4 1) j)
    let got := lines.map (fun j => (j, dmaRead e d (a + 0x40 + 64 * j) 64))
    if got.any (fun p => p.2.isNone) then none
    else
      let idx := got.flatMap (fun p => (List.range 16).map (fun i =>
        (16 * p.1 + i, BitVec.ofNat 32 (fld (p.2.getD []) (4 * i) 4))))
      some (BitVec.ofNat 32 (fld b 0 4), own ++ idx)

/-- The heartbeat of a tick (R260): present when HB differs from that of the previous successful fetch. -/
def heartbeat (hb : Option (BitVec 32)) (e : Env) (d : Device) : Device :=
  let r := d.ring
  let present := match hb, r.hb with | some x, some y => x ≠ y | _, _ => false
  let d := { d with ring := { r with
    hb := hb.or r.hb, hbAge := if present then 0 else add32 r.hbAge 1, hbStale := r.hbStale && !present } }
  when (present && r.hbStale) (raise 0x100A 0x00 [] e) d

/-- DOORBELL_FETCH_DONE (R22, R128, R259, R264, R273, R278): the indices and the heartbeat, then the entries they
cover. -/
def doorbellDone (ok : Bool) (e : Env) (d : Device) : Device :=
  if !d.ring.fetching || !d.ring.go then d
  else
    let d := { d with ring := { d.ring with fetching := false } }
    let d := match (if ok then fetched e d else none) with
      | some (hb, idx) => forAll idx (fun p d => takeHidx p.1 p.2 e d) (heartbeat (some hb) e d)
      | none =>
        let n := inc32 d.ring.dbMiss
        raise 0x2003 0x00 (leBytes 4 n) e (heartbeat none e { d with ring := { d.ring with dbMiss := n } })
    let d := cmdRead e 256 d
    let d := metaRead e (2 * nObj d) d
    let d := forAll (List.range 16) (fun h d => ainRead h e (covered (ringAt d (16 + h))) d) d
    nrxAfterFetch e d

def execDoorbellFetchDone (ok : Bool) (h : HostView) (s : State) : Host.Outcome State Fault Refusal :=
  actH h (doorbellDone ok) s

/-- HB_STALE (R260): raised once when HB_AGE has reached 600. -/
def hbStale (e : Env) (d : Device) : Device :=
  if !d.ring.go || d.ring.hbStale || d.ring.hbAge < 600 then d
  else raise 0x200B 0x00 (leBytes 4 d.ring.hbAge) e { d with ring := { d.ring with hbStale := true } }

def execHbStale (s : State) : Host.Outcome State Fault Refusal := act hbStale s

/-! ## Start and stop of the engine (R257, R507) -/

/-- RING_GO_SET: an unaligned base leaves RING_GO clear with RING_ERR; otherwise rings 0 to 3 start and HB_AGE counts
anew. -/
def ringGoSet (e : Env) (d : Device) : Device :=
  if d.ring.go && !d.ring.stopping then d
  else if d.ring.dbBase.toNat % 64 ≠ 0 || d.ring.tblBase.toNat % 64 ≠ 0 || d.ring.devBase.toNat % 64 ≠ 0 then
    { d with pwr := { d.pwr with ringErr := true } }
  else
    ringsStart e { d with ring := { d.ring with go := true, stopping := false, hbAge := 0, hbStale := false } }

def execRingGoSet (h : HostView) (s : State) : Host.Outcome State Fault Refusal := hostActH h ringGoSet s

/-- RING_GO_CLEAR: the engine stops at the next tick. -/
def execRingGoClear (s : State) : Host.Outcome State Fault Refusal :=
  hostAct (fun _ d => if d.ring.go then { d with ring := { d.ring with stopping := true } } else d) s

/-- The engine stops: no DMA from here on, rings 4 to 127 stop (R507). -/
def engineStop (e : Env) (d : Device) : Device :=
  let d := forAll ((List.range 124).map (4 + ·)) (fun r d => if (ringAt d r).run then ringStop r e d else d) d
  { d with ring := { d.ring with go := false, stopping := false, fetching := false } }

/-! ## PCI Express (R251, R252) -/

def execBusMasterEnable (on : Bool) (s : State) : Host.Outcome State Fault Refusal :=
  hostAct (fun _ d => { d with ring := { d.ring with busMaster := on } }) s

/-- D3HOT_ENTRY: the ring engine issues no DMA, and nothing else stops. -/
def execD3hotEntry (s : State) : Host.Outcome State Fault Refusal :=
  hostAct (fun _ d => { d with ring := { d.ring with d3hot := true } }) s

def execD3hotExit (s : State) : Host.Outcome State Fault Refusal :=
  hostAct (fun _ d => { d with ring := { d.ring with d3hot := false } }) s

end Sys2Proof.Machine
end

