-- ==== Sys2Proof/Machine/Control.lean ====
section
/-! DEFINITION. Requests that the host makes through registers with a behaviour of their own: warm reset and power cycle
(R242, R490, R493), the limit unlock (R506), the quiet state (R487 to R489) and MDIO (R522). -/
namespace Sys2Proof.Machine

/-- A write that the device discards (R498). -/
def discardWrite (d : Device) : Device := { d with pwr := { d.pwr with accErr := true } }

/-- A write that a range line takes as a limit (R498). -/
def clampWrite (c : Bool) (d : Device) : Device :=
  if c then { d with pwr := { d.pwr with clamped := true } } else d

/-! ## Reset and power-cycle requests -/

/-- An active hub of a pair withdraws with cause RESET before a reset (R240, R242). -/
def mustWithdraw (d : Device) : Bool := paired d && !d.pwr.spoke && isActive d.pair

/-- A reset or a power cycle of a kind is wanted: an active hub of a pair withdraws and acts two frames later (R242). -/
def delayReset (kind : Nat) (d : Device) : Device :=
  if mustWithdraw d && d.pair.delayed.isNone then
    noteCause causeReset { d with pair := { d.pair with delayed := some (2, kind) } }
  else d

/-- A warm reset with a cause of RESET_CAUSE is wanted (R490, R505). -/
def wantReset (bit : Nat) (d : Device) : Device :=
  { d with pwr := { d.pwr with nextCause := d.pwr.nextCause ||| (1#7 <<< bit) } }

/-- DEV_RESET: 0x0000_D00D starts a warm reset, every other value is discarded. -/
def devReset (v : BitVec 32) (d : Device) : Device :=
  if v ≠ 0xD00D#32 then discardWrite d else wantReset 2 (delayReset 1 d)

/-- FLR: a PCI Express function-level reset (R490). -/
def flr (d : Device) : Device := wantReset 3 (delayReset 2 d)

/-- PWR_CYCLE: 0x0000_5C5C requests a power cycle, every other value is discarded (R493).
(log 110: DEDUCED, unsafe.) -/
def pwrCycle (v : BitVec 32) (d : Device) : Device :=
  if v ≠ 0x5C5C#32 then discardWrite d
  else
    let d := delayReset 3 d
    { d with pwr := { d.pwr with hostAsked := true } }

/-- HEARTBEAT_WATCHDOG: HB_AGE has reached 60,000 frames (R493). (log 110: DEDUCED, unsafe.) -/
def watchdog (d : Device) : Device :=
  if !d.ring.go || !d.pwr.hbWdEn || d.ring.hbAge < 60000 || d.pwr.wdAsked || d.pwr.quiet then d
  else
    let d := delayReset 4 d
    { d with pwr := { d.pwr with wdAsked := true } }

/-! ## Limit unlock (R506) -/

/-- A write of LIMIT_UNLOCK: open after 0x0000_A55A then 0x0000_5AA5; any other write discards the sequence, and a write
while it is open closes it. (log 77: DEDUCED, unsafe.) -/
def limitUnlock (v : BitVec 32) (d : Device) : Device :=
  let j := d.jrn
  if j.unlocked then { d with jrn := { j with unlocked := false, openFor := 0, armed := false } }
  else if j.armed then
    if v = 0x5AA5#32 then { d with jrn := { j with unlocked := true, openFor := 600, armed := false } }
    else { d with jrn := { j with armed := false } }
  else { d with jrn := { j with armed := v = 0xA55A#32 } }

/-- LIMIT_UNLOCK_EXPIRE: 600 frames have passed. -/
def limitExpire (d : Device) : Device :=
  if d.jrn.unlocked && d.jrn.openFor = 0 then { d with jrn := { d.jrn with unlocked := false } } else d

/-! ## The quiet state (R487 to R489) -/

/-- QUIET_ENTER: refused while rendering runs or a power channel is outside OFF, SAFE and LATCHED, else entered in the
order of R487. (log 109: DEDUCED, unsafe.) -/
def quietEnter (e : Env) (d : Device) : Device :=
  if d.pwr.quiet then d
  else if d.pwr.rendering || (List.range 16).any (pchActive d) then
    { d with pwr := { d.pwr with quietRefused := true } }
  else
    let d := dropAll 5 (d.cmd.queue.filter (fun p => !p.applied)) e d
    let d := { d with ring := { d.ring with fetching := false, telLast := none } }
    let d := forAll [0, 1, 2] (fun p d => linkDown p e d) d
    let d := modPort 3 (fun x => { x with link := false, rxNow := none, txNow := none, lpi := 0 }) d
    let d := { d with psc := { d.psc with
      dec := mmap {} (fun _ (c : Dec) => { decClear c with started := false, running := false, frame := [], out := [] })
        d.psc.dec
      rail := mmap {} (fun _ (r : Rail) => { r with rho := 0 }) d.psc.rail } }
    let d := selfRefEnter 1 (selfRefEnter 0 d)
    let d := setServo .hold e (setClk .off e d)
    { d with clk := { d.clk with tickOn := false, ticked := false, step := 0 }, pwr := { d.pwr with quiet := true } }

/-- QUIET_EXIT: DRAM leaves self-refresh, the media PLL runs its first lock; the tick, the patrol and the ring engine go on
once it locks. (log 109: DEDUCED, unsafe.) -/
def quietExit (e : Env) (d : Device) : Device :=
  if !d.pwr.quiet then d
  else
    let d := selfRefExit 1 (selfRefExit 0 d)
    firstLock e { d with pwr := { d.pwr with quiet := false } }

/-! ## MDIO (R522) -/

/-- A write of MDIO_CMD on M3: discarded while BUSY, else a frame goes out. Operations: 0 C22 write, 1 C22 read, 2 C45
address, 3 C45 write, 4 C45 read. (log 105: DEDUCED, unsafe.) -/
def mdioCmd (op : Nat) (phyad reg : BitVec 5) (data : BitVec 16) (d : Device) : Device :=
  if d.eth.mdioBusy || op > 4 then discardWrite d
  else { d with eth := { d.eth with mdioBusy := true, mdioRead := op = 1 || op = 4
                                    mdioFrame := some (op, phyad, reg, data) } }

/-- MDIO_DONE: the frame has ended; a read latches its data. -/
def mdioDone (data : BitVec 16) (d : Device) : Device :=
  if !d.eth.mdioBusy then d
  else { d with eth := { d.eth with mdioBusy := false, mdioFrame := none
                                    mdioData := if d.eth.mdioRead then data else d.eth.mdioData } }

/-! ## Commands -/

def execDevReset (v : BitVec 32) (s : State) : Host.Outcome State Fault Refusal := hostAct (fun _ d => devReset v d) s
def execFlr (s : State) : Host.Outcome State Fault Refusal := hostAct (fun _ d => flr d) s
def execPwrCycle (v : BitVec 32) (s : State) : Host.Outcome State Fault Refusal := hostAct (fun _ d => pwrCycle v d) s
def execHeartbeatWatchdog (s : State) : Host.Outcome State Fault Refusal := act (fun _ d => watchdog d) s
def execLimitUnlock (v : BitVec 32) (s : State) : Host.Outcome State Fault Refusal := hostAct (fun _ d => limitUnlock v d) s
def execLimitUnlockExpire (s : State) : Host.Outcome State Fault Refusal := act (fun _ d => limitExpire d) s
def execQuietEnter (s : State) : Host.Outcome State Fault Refusal := hostAct quietEnter s
def execQuietExit (s : State) : Host.Outcome State Fault Refusal := hostAct quietExit s
def execC22Write (phyad regad : BitVec 5) (data : BitVec 16) (s : State) : Host.Outcome State Fault Refusal :=
  hostAct (fun _ d => mdioCmd 0 phyad regad data d) s
def execC22Read (phyad regad : BitVec 5) (s : State) : Host.Outcome State Fault Refusal :=
  hostAct (fun _ d => mdioCmd 1 phyad regad 0 d) s
def execC45Address (phyad devad : BitVec 5) (addr : BitVec 16) (s : State) : Host.Outcome State Fault Refusal :=
  hostAct (fun _ d => mdioCmd 2 phyad devad addr d) s
def execC45Write (phyad devad : BitVec 5) (data : BitVec 16) (s : State) : Host.Outcome State Fault Refusal :=
  hostAct (fun _ d => mdioCmd 3 phyad devad data d) s
def execC45Read (phyad devad : BitVec 5) (s : State) : Host.Outcome State Fault Refusal :=
  hostAct (fun _ d => mdioCmd 4 phyad devad 0 d) s
def execMdioDone (data : BitVec 16) (s : State) : Host.Outcome State Fault Refusal := act (fun _ d => mdioDone data d) s

end Sys2Proof.Machine
end

