-- ==== Sys2Proof/Machine/Cores.lean ====
section
/-! DEFINITION. The rows of the render cores (chapter 11): what each instruction does on the core that executes it,
faults and losses (R313, R348, R349), and the completion of transfers (R338). -/
namespace Sys2Proof.Machine

/-! ## Issue on a core -/

/-- What a core knows of its task. -/
def coreCtx (d : Device) (core : Nat) : CoreCtx :=
  let w := (cslotAt d core).running
  let t := w.bind (fun w => taskAt d w.task)
  let custom := match t with | some t => (match t.kind with | .custom _ => true | _ => false) | none => false
  { core := core, custom := custom, background := w.any (·.job.isSome) || t.any (·.background), bufs := operandBuffers d }

/-- A fault (R348, R349): FCAUSE, then the abort. (log 60: DEDUCED, unsafe.) -/
def coreFault (core cause : Nat) (e : Env) (d : Device) : Device :=
  let pc := (coreAt d core).regs.pc.toNat
  abortTask core e (modCore core (fun c => { c with fcause := BitVec.ofNat 32 (cause * pow2 24 + pc) }) d)

/-- An uncorrectable scratch word: counted, and the core is lost (R313, R356). -/
def coreEcc (core w : Nat) (e : Env) (d : Device) : Device := loseCore core e (ueScratch core w d)

/-- The result of an instruction's issue. -/
def coreSettle (core : Nat) (r : CoreRes) (e : Env) (d : Device) : Device :=
  match r with
  | .ok c => setCore core c d
  | .wait c => setCore core c d
  | .fault k => coreFault core k e d
  | .ecc w => coreEcc core w e d
  | .done => finishTask core e d

/-- The core executes a task and waits in no WAITX or DONE. -/
def coreRuns (d : Device) (core : Nat) : Bool :=
  (cslotAt d core).running.isSome && (coreAt d core).regs.waitMask.isNone && !(coreAt d core).regs.doneWait

/-- The key of the instruction word that a core fetches: its cluster's memory, at its address (R321). -/
def fetchKey (d : Device) (core : Nat) : Nat := 65536 * (core / 8) + (coreAt d core).regs.pc.toNat

/-- An uncorrectable instruction word (R321): the task ends with cause IMEM, the word is rewritten from the DRAM copy, the error
counts as an uncorrectable ECC error. The built-in code stands in `Config.builtinCode`, which nothing changes.
(log 128: DESIGN CHOICE, safe.) -/
def imemLost (core : Nat) (e : Env) (d : Device) : Device :=
  let k := fetchKey d core
  let a := k % 65536
  let d := when (decide (0x8000 ≤ a)) (fun d => { d with
    imem := mset 0 d.imem k (BitVec.ofNat 64 (dramWord d ((cfg d).codeBase / 8 + (a - 0x8000)))) }) d
  let d := noteCause causeEcc { d with mem := { d.mem with imemBad := d.mem.imemBad.filter (· ≠ k) } }
  coreFault core 0x08 e d

/-- An instruction row: it issues where the word is one that the encodings admit and the core runs. A custom task that fetches
outside its half of the memory faults before the word is read (R343).
(log 12: DESIGN CHOICE, unsafe.) -/
def coreStep (core : Nat) (wf listed xferLike : Bool) (f : CoreCtx → CoreState → CoreRes) (e : Env) (d : Device) :
    Device :=
  if core < 64 && wf && coreRuns d core then
    let ctx := coreCtx d core
    if d.mem.imemBad.contains (fetchKey d core) && !(ctx.custom && (coreAt d core).regs.pc.toNat < 0x8000) then
      imemLost core e d
    else coreSettle core (issue ctx listed xferLike (f ctx) (coreAt d core)) e d
  else d

/-- A format A row. (log 12: DESIGN CHOICE, unsafe.) -/
def stepA (core : Nat) (s : AShape) (f : AFmt) (o : AOp) (st : State) : Host.Outcome State Fault Refusal :=
  act (coreStep core (f.wf s) false false (fun _ c => runA f o c)) st

/-! ## Format A -/

def execInsnNop (core : Nat) (f : AFmt) (s : State) : Host.Outcome State Fault Refusal := stepA core .bare f opNop s

/-- d = a + b (R332). -/
def execFadd (core : Nat) (f : AFmt) (s : State) : Host.Outcome State Fault Refusal :=
  stepA core .binary f (arith f 3 true (fun _ a b => satDy (dyAdd (toDy a) (toDy b)))) s

def execFsub (core : Nat) (f : AFmt) (s : State) : Host.Outcome State Fault Refusal :=
  stepA core .binary f (arith f 3 true (fun _ a b => satDy (dySub (toDy a) (toDy b)))) s

def execFmul (core : Nat) (f : AFmt) (s : State) : Host.Outcome State Fault Refusal :=
  stepA core .binary f (arith f 3 true (fun _ a b => satDy (dyMul (toDy a) (toDy b)))) s

def execFmac (core : Nat) (f : AFmt) (s : State) : Host.Outcome State Fault Refusal :=
  stepA core .binary f (arithMac f false) s

def execFmsc (core : Nat) (f : AFmt) (s : State) : Host.Outcome State Fault Refusal :=
  stepA core .binary f (arithMac f true) s

def execFmin (core : Nat) (f : AFmt) (s : State) : Host.Outcome State Fault Refusal :=
  stepA core .binary f (arith f 3 true (fun _ a b => (fmin a b, false))) s

def execFmax (core : Nat) (f : AFmt) (s : State) : Host.Outcome State Fault Refusal :=
  stepA core .binary f (arith f 3 true (fun _ a b => (fmax a b, false))) s

def execFabs (core : Nat) (f : AFmt) (s : State) : Host.Outcome State Fault Refusal :=
  stepA core .unary f (arith f 3 false (fun _ a _ => (fabs a, false))) s

def execFneg (core : Nat) (f : AFmt) (s : State) : Host.Outcome State Fault Refusal :=
  stepA core .unary f (arith f 3 false (fun _ a _ => (fneg a, false))) s

def execFmov (core : Nat) (f : AFmt) (s : State) : Host.Outcome State Fault Refusal :=
  stepA core .unary f (arith f 3 false (fun _ a _ => (fcanon a, false))) s

/-- d = a / b (R334): the divide unit is busy for 7 cycles. -/
def execFdiv (core : Nat) (f : AFmt) (s : State) : Host.Outcome State Fault Refusal :=
  stepA core .binaryHalf f { arith f 7 true (fun _ a b => divSat a b) with div := true } s

/-- d = sqrt(a) (R334): a negative value gives +0 and sets SAT. -/
def execFsqrt (core : Nat) (f : AFmt) (s : State) : Host.Outcome State Fault Refusal :=
  stepA core .unaryHalf f { arith f 7 false (fun _ a _ => (fsqrt a, decide ((toDy a).m < 0))) with div := true } s

def execFcmp (core : Nat) (f : AFmt) (s : State) : Host.Outcome State Fault Refusal :=
  act (coreStep core (cmpWf f) false false (fun _ c => runA f (compare f 3 feq flt) c)) s

def execFexp (core : Nat) (f : AFmt) (s : State) : Host.Outcome State Fault Refusal :=
  stepA core .unary f (arith f 3 false (fun _ a _ => (opExp a, false))) s

def execFscl (core : Nat) (f : AFmt) (s : State) : Host.Outcome State Fault Refusal :=
  stepA core .binary f (arith f 3 true (fun _ a b => satDy ⟨(toDy a).m, (toDy a).e + intOf b⟩)) s

def execFmant (core : Nat) (f : AFmt) (s : State) : Host.Outcome State Fault Refusal :=
  stepA core .unary f (arith f 3 false (fun _ a _ => (opMant a, false))) s

def execItof (core : Nat) (f : AFmt) (s : State) : Host.Outcome State Fault Refusal :=
  stepA core .unary f (arith f 3 false (fun _ a _ => satDy ⟨intOf a, 0⟩)) s

def execFtoi (core : Nat) (f : AFmt) (s : State) : Host.Outcome State Fault Refusal :=
  stepA core .unary f (arith f 3 false (fun _ a _ =>
    let p := toInt (-2147483648) 2147483647 (toDy a)
    (ofInt32 (BitVec.ofInt 32 p.1), p.2))) s

def execPtof (core : Nat) (f : AFmt) (s : State) : Host.Outcome State Fault Refusal := stepA core .pcm f (opPtof f) s

def execFtop (core : Nat) (f : AFmt) (s : State) : Host.Outcome State Fault Refusal := stepA core .pcm f (opFtop f) s

def execIadd (core : Nat) (f : AFmt) (s : State) : Host.Outcome State Fault Refusal :=
  stepA core .binary f (arith f 1 true (intOp (fun a b => a + b))) s

def execIsub (core : Nat) (f : AFmt) (s : State) : Host.Outcome State Fault Refusal :=
  stepA core .binary f (arith f 1 true (intOp (fun a b => a - b))) s

def execImul (core : Nat) (f : AFmt) (s : State) : Host.Outcome State Fault Refusal :=
  stepA core .binary f (arith f 2 true (intOp (fun a b => a * b))) s

def execIand (core : Nat) (f : AFmt) (s : State) : Host.Outcome State Fault Refusal :=
  stepA core .binary f (arith f 1 true (intOp (fun a b => a &&& b))) s

def execIor (core : Nat) (f : AFmt) (s : State) : Host.Outcome State Fault Refusal :=
  stepA core .binary f (arith f 1 true (intOp (fun a b => a ||| b))) s

def execIxor (core : Nat) (f : AFmt) (s : State) : Host.Outcome State Fault Refusal :=
  stepA core .binary f (arith f 1 true (intOp (fun a b => a ^^^ b))) s

def execIshl (core : Nat) (f : AFmt) (s : State) : Host.Outcome State Fault Refusal :=
  stepA core .binary f (arith f 1 true (intOp (fun a b => a <<< shCount b))) s

def execIshr (core : Nat) (f : AFmt) (s : State) : Host.Outcome State Fault Refusal :=
  stepA core .binary f (arith f 1 true (intOp (fun a b => a.sshiftRight (shCount b)))) s

def execIlsr (core : Nat) (f : AFmt) (s : State) : Host.Outcome State Fault Refusal :=
  stepA core .binary f (arith f 1 true (intOp (fun a b => a >>> shCount b))) s

def execIcmp (core : Nat) (f : AFmt) (s : State) : Host.Outcome State Fault Refusal :=
  act (coreStep core (cmpWf f) false false (fun _ c =>
    runA f (compare f 1 (fun a b => intOf a == intOf b) (fun a b => decide (intOf a < intOf b))) c)) s

def execIcls (core : Nat) (f : AFmt) (s : State) : Host.Outcome State Fault Refusal :=
  stepA core .unary f (arith f 3 false (fun _ a _ => (opCls a, false))) s

def execDmov (core : Nat) (f : AFmt) (s : State) : Host.Outcome State Fault Refusal := stepA core .whole f (opDmov f) s

/-! ## Formats I, S, L -/

/-- d.lo = a.lo + IMM32 (R353). -/
def execIaddi (core : Nat) (dst src : BitVec 5) (imm : BitVec 32) (s : State) : Host.Outcome State Fault Refusal :=
  act (coreStep core true false false (fun _ c => runPlain [src] (some dst) 1 false
    (fun r => setD r dst (setLo (dreg r dst) (ofInt32 (natOf (loOf (dreg r src)) + imm)))) c)) s

def execLdi (core : Nat) (dst : BitVec 5) (imm : BitVec 32) (s : State) : Host.Outcome State Fault Refusal :=
  act (coreStep core true false false (fun _ c => runPlain [] (some dst) 1 false
    (fun r => setD r dst (setLo (dreg r dst) (ofInt32 imm))) c)) s

def execMts (core : Nat) (sreg : BitVec 7) (dr : BitVec 5) (s : State) : Host.Outcome State Fault Refusal :=
  act (coreStep core (sregWf sreg) false false (fun _ c =>
    runMts sreg [dr] (fun r => natOf (loOf (dreg r dr))) c)) s

def execMfs (core : Nat) (sreg : BitVec 7) (dr : BitVec 5) (s : State) : Host.Outcome State Fault Refusal :=
  act (coreStep core (sregWf sreg) false false (fun ctx c => runPlain [] (some dr) 1 (sreg == 0x47#7)
    (fun r => setD r dr (setLo (dreg r dr) (getSreg ctx sreg.toNat r c))) c)) s

def execMtsi (core : Nat) (sreg : BitVec 7) (imm : BitVec 32) (s : State) : Host.Outcome State Fault Refusal :=
  act (coreStep core (sregWf sreg) false false (fun _ c => runMts sreg [] (fun _ => imm) c)) s

def execPaddi (core : Nat) (areg : BitVec 4) (imm : BitVec 32) (s : State) : Host.Outcome State Fault Refusal :=
  act (coreStep core true false false (fun _ c => runPaddi areg imm c)) s

/-- d.lane ← IMM36, canonical; PAIR writes both halves (R353). -/
def execLdf (core : Nat) (dst : BitVec 5) (lane : Lane) (imm : F36) (s : State) : Host.Outcome State Fault Refusal :=
  act (coreStep core (lane ≠ .pairb) false false (fun _ c => runPlain [] (some dst) 1 false
    (fun r => setD r dst (match lane with
      | .lo => setLo (dreg r dst) (fcanon imm)
      | .hi => setHi (dreg r dst) (fcanon imm)
      | _ => ofHalves (fcanon imm) (fcanon imm))) c)) s

/-! ## Formats B and X -/

def execBr (core : Nat) (cond : BitVec 3) (target : BitVec 16) (s : State) : Host.Outcome State Fault Refusal :=
  act (coreStep core true true false (fun _ c => runBranch cond (fun _ => target) false c)) s

def execCall (core : Nat) (cond : BitVec 3) (target : BitVec 16) (s : State) : Host.Outcome State Fault Refusal :=
  act (coreStep core true true false (fun _ c => runBranch cond (fun _ => target) true c)) s

def execRet (core : Nat) (cond : BitVec 3) (s : State) : Host.Outcome State Fault Refusal :=
  act (coreStep core true true false (fun _ c => runBranch cond (fun r => r.lr) false c)) s

def execRep (core : Nat) (count end_ : BitVec 16) (s : State) : Host.Outcome State Fault Refusal :=
  act (coreStep core true true false (fun _ c => runRep (fun _ => count.toNat) [] end_ c)) s

def execRepd (core : Nat) (cnt : BitVec 5) (end_ : BitVec 16) (s : State) : Host.Outcome State Fault Refusal :=
  act (coreStep core true true false (fun _ c => runRep (repdCount cnt) [cnt] end_ c)) s

def execHold (core : Nat) (n : BitVec 3) (s : State) : Host.Outcome State Fault Refusal :=
  act (coreStep core (holdWf n) true false (fun _ c => runHold n c)) s

def execWaitx (core : Nat) (mask : BitVec 4) (s : State) : Host.Outcome State Fault Refusal :=
  act (coreStep core true false true (fun _ c => runWaitx mask c)) s

def execDone (core : Nat) (s : State) : Host.Outcome State Fault Refusal :=
  act (coreStep core true true false (fun _ c => runDone c)) s

def execXfer (core : Nat) (write : Bool) (tag : BitVec 2) (ps : BitVec 4) (da : BitVec 5) (count : BitVec 14)
    (s : State) : Host.Outcome State Fault Refusal :=
  act (coreStep core (countWf count) false true (fun ctx c => runXfer ctx write tag ps da count c)) s

end Sys2Proof.Machine
end

