-- ==== Sys2Proof/Machine/Regs.lean ====
section
/-! DEFINITION. The set-up registers (chapter 18): what a 32-bit read of each offset returns and what a 32-bit write
does, with the rules of access of R497 to R500. -/
namespace Sys2Proof.Machine

/-! ## Fields -/

def w32 (n : Nat) : BitVec 32 := BitVec.ofNat 32 n
def s32 (v : Int) : BitVec 32 := BitVec.ofInt 32 v

/-- Low and high words of a wide field (R499). -/
def lowWord (n : Nat) : BitVec 32 := w32 n
def highWord (n : Nat) : BitVec 32 := w32 (n / pow2 32)

/-- Bits `hi` down to `lo` of a word. -/
def bitsOf (v : BitVec 32) (lo len : Nat) : Nat := v.toNat / pow2 lo % pow2 len

/-- A plain register as written. (log 104: DEDUCED, unsafe.) -/
def setReg (off : Nat) (v : BitVec 32) (d : Device) : Device :=
  { d with regs := { d.regs with plain := minsert off v (mdel d.regs.plain off) } }

/-- A word of a block of bytes. -/
def byteWord (l : List Byte) (i : Nat) : BitVec 32 := w32 (fld l (4 * i) 4)

/-- A block of bytes with word `i` replaced. -/
def putWord (l : List Byte) (i : Nat) (v : BitVec 32) : List Byte := patch l (4 * i) (leBytes 4 v.toNat)

/-- A value held between limits, and whether a limit acted. -/
def held (lo hi v : Int) : Int × Bool := if v < lo then (lo, true) else if v > hi then (hi, true) else (v, false)

/-! ## Reads -/

/-- SETUP_STATUS (R503). -/
def setupStatus (e : Env) (d : Device) : BitVec 32 :=
  let p := d.pwr
  let (ch, lane) := p.dramFail.getD (0, 0)
  w32 (ofBits ([p.setupReady, e.fnSync, false, dramReady d, p.dramFail.isSome, ch = 1, bit lane 0, bit lane 1, bit lane 2,
    bit lane 3, d.jrn.otpFail, p.ringErr, p.quietRefused, p.quiet, d.disp.budgetLost, p.rendering, p.accErr, p.clamped]))

/-- CLK_STATUS (R511). -/
def clkStatus (d : Device) : BitVec 32 :=
  let c := d.clk
  w32 (servoNum c.servo + 4 * clkNum c.st + 16 * c.ref
    + 256 * ofBits [c.epochValid, c.aligned, c.sysLost, c.regDrop, c.regRefused])

/-- Detected configuration of a channel, 0xF before detection and after failure (R502). -/
def detectedCfg (d : Device) (c : Nat) : Nat := if (dchAt d c).failed.isSome then 0xF else (dchAt d c).det

/-- ROLE_INFO (R502). -/
def roleInfo (d : Device) : BitVec 32 :=
  w32 (roleNum d + (if committedRole d = 0 then 0 else 4) + 16 * d.jrn.slots.length)

/-- Identity to limit unlock: offsets below 0x300. (log 21: DESIGN CHOICE, safe.) -/
def readId (off : Nat) (e : Env) (d : Device) : BitVec 32 :=
  match off with
  | 0x000 => 0x0A240002#32
  | 0x004 => roleInfo d
  | 0x008 => lowWord Config.serial.toNat
  | 0x00C => highWord Config.serial.toNat
  | 0x010 => lowWord Config.vendor.toNat
  | 0x014 => highWord Config.vendor.toNat
  | 0x020 => setupStatus e d
  | 0x024 => w32 (detectedCfg d 0 + 16 * detectedCfg d 1)
  | 0x028 => w32 d.img.ssLow
  | 0x030 => w32 (uext 16 d.pwr.temp + 65536 * uext 16 d.pwr.tempMax)
  | 0x100 => regAt d 0x100 (lowWord d.img.addr.toNat)
  | 0x104 => highWord d.img.addr.toNat
  | 0x108 => d.img.len
  | 0x110 => w32 (d.img.st + 65536 * d.img.code)
  | 0x114 => w32 (nth 0 d.img.detail 0)
  | 0x118 => w32 (nth 0 d.img.detail 1)
  | 0x11C => w32 (nth 0 d.img.detail 2)
  | 0x120 => w32 (nth 0 d.img.detail 3)
  | 0x124 => lowWord d.img.imgId.toNat
  | 0x128 => highWord d.img.imgId.toNat
  | 0x204 => w32 (ofBits [d.pwr.quiet, d.pwr.hbWdEn])
  | 0x20C => w32 d.pwr.cause.toNat
  | 0x210 => if d.jrn.unlocked then w32 (1 + 64 * d.jrn.openFor) else 0
  | _ => 0

/-- Rings, time and clocks: offsets 0x300 to 0x5FF. -/
def readTime (off : Nat) (d : Device) : BitVec 32 :=
  let r := d.ring
  let c := d.clk
  match off with
  | 0x300 => regAt d 0x300 (lowWord r.dbBase.toNat)
  | 0x304 => highWord r.dbBase.toNat
  | 0x308 => regAt d 0x308 (lowWord r.tblBase.toNat)
  | 0x30C => highWord r.tblBase.toNat
  | 0x310 => regAt d 0x310 (lowWord r.devBase.toNat)
  | 0x314 => highWord r.devBase.toNat
  | 0x318 => w32 (ofBits [r.go && !r.stopping])
  | 0x31C => w32 r.errVec
  | 0x400 => timeNs d
  | 0x404 => w32 c.timeFrac.toNat
  | 0x408 => c.timeFn
  | 0x410 => regAt d 0x410 (lowWord c.srvOfs.toNat)
  | 0x414 => highWord c.srvOfs.toNat
  | 0x418 => c.srvMeas
  | 0x420 => regAt d 0x420 (lowWord c.epSecCur.toNat)
  | 0x424 => highWord c.epSecCur.toNat
  | 0x428 => c.epNsCur
  | 0x42C => regAt d 0x42C (lowWord c.epSecNext.toNat)
  | 0x430 => highWord c.epSecNext.toNat
  | 0x434 => c.epNsNext
  | 0x440 => w32 c.kp
  | 0x444 => w32 c.ki
  | 0x448 => w32 c.stepThr
  | 0x44C => w32 c.lockThr
  | 0x450 => w32 c.lockCnt
  | 0x454 => w32 c.unlockThr
  | 0x458 => w32 c.unlockCnt
  | 0x45C => w32 c.timeout
  | 0x460 => s32 c.freeTrim
  | 0x464 => w32 c.refQual
  | 0x468 => s32 c.y
  | 0x46C => s32 c.yI
  | 0x500 => clkStatus d
  | 0x504 => w32 (sat32 c.phi)
  | 0x508 => w32 c.wclk
  | _ => 0

/-- SRAM and patrol: offsets 0x600 to 0x7FF (R512). -/
def readSram (off : Nat) (d : Device) : BitVec 32 :=
  let m := d.mem
  match off with
  | 0x600 => w32 (ofBits [m.patrolEn])
  | 0x604 => w32 m.pos
  | 0x608 => w32 m.fails
  | 0x60C => w32 m.lastFail
  | 0x610 => w32 m.bayCe
  | 0x614 => w32 m.bayUe
  | 0x618 => m.bayAddr
  | 0x61C => w32 m.scrCe
  | 0x620 => w32 m.scrUe
  | 0x624 => m.scrAddr
  | 0x628 => w32 m.ssCe
  | 0x62C => w32 m.ssUe
  | 0x630 => m.ssAddr
  | _ =>
    if 0x640 ≤ off && off < 0x680 then
      let b := (off - 0x640) / 4
      w32 (mget 0 m.used b + 256 * mget 0 m.unusable b)
    else 0

/-- A word of a DRAM log entry (R514). -/
def dlogWord (d : Device) (ch j w : Nat) : BitVec 32 :=
  match (dchAt d ch).log[j]? with
  | none => 0
  | some x =>
    let (rank, bg, bank, row, col) := dramLoc (dchAt d ch).det x.ca
    match w with
    | 0 =>
      let syn := if x.kind < 2 then Config.syndrome ch x.seq % 256 else 0
      w32 (x.kind + 4 * rank + 8 * bg + 32 * bank + 256 * syn + 65536 * x.master)
    | 1 => w32 (row + pow2 17 * col)
    | 2 => x.fn
    | _ => w32 x.seq

/-- DRAM channel registers at `o` within channel `ch` (R513). (log 23: DESIGN CHOICE, safe.) -/
def readDram (ch o : Nat) (d : Device) : BitVec 32 :=
  let c := dchAt d ch
  match o with
  | 0x000 => w32 (ofBits [c.hot, c.selfRef = 1] + 16 * c.owed)
  | 0x004 => w32 c.hotCnt
  | 0x008 => w32 (mget 0 c.cnt 0)
  | 0x00C => w32 (mget 0 c.cnt 1)
  | 0x010 => w32 (mget 0 c.cnt 2)
  | 0x014 => w32 (mget 0 c.cnt 3)
  | 0x018 => w32 c.replayCnt
  | 0x01C => w32 (c.seq % 16)
  | _ => if 0x100 ≤ o && o < 0x200 then dlogWord d ch ((o - 0x100) / 16) (o % 16 / 4) else 0

/-- A word of a crossbar log entry (R515). -/
def xlogWord (d : Device) (j w : Nat) : BitVec 32 :=
  match d.xbar.log[j]? with
  | none => 0
  | some x =>
    match w with
    | 0 => w32 (x.master + 256 * x.target + 65536 * x.code + pow2 24 * (x.addr / pow2 32 % 256))
    | 1 => lowWord x.addr
    | 2 => x.fn
    | _ => w32 x.seq

/-- Crossbar log: offsets 0xC00 to 0xCFF. -/
def readXlog (off : Nat) (d : Device) : BitVec 32 :=
  match off with
  | 0xC00 => w32 (d.xbar.seq % 16)
  | 0xC04 => w32 d.xbar.decerr
  | 0xC08 => w32 d.xbar.slverr
  | 0xC0C => w32 d.xbar.wcoll
  | _ => if 0xC40 ≤ off && off < 0xD40 then xlogWord d ((off - 0xC40) / 16) (off % 16 / 4) else 0

/-- Debug and pin functions: offsets 0x1000 to 0x23FF (R516, R518). -/
def readDebug (off : Nat) (d : Device) : BitVec 32 :=
  match off with
  | 0x1000 => regAt d off 0
  | 0x1004 => regAt d off (lowWord d.regs.dbgAddr.toNat)
  | 0x1008 => highWord d.regs.dbgAddr.toNat
  | 0x100C => regAt d off 0
  | 0x1010 => regAt d off 0
  | 0x1014 => regAt d off 0
  | 0x1018 => regAt d off 0x1FF#32
  | 0x1020 => w32 (ofBits [d.regs.dbgBusy] + 2 * d.regs.dbgResp)
  | 0x1024 => regAt d off 0
  | 0x1028 => (coreAt d (regAt d 0x1024 0).toNat).fcause
  | 0x2000 => regAt d off 0
  | 0x2004 => regAt d off 0xFFFFFFFF#32
  | 0x2008 => regAt d off 0xFF#32
  | 0x200C => regAt d off 0x1F#32
  | 0x2010 => regAt d off 0x15#32
  | _ =>
    if 0x2100 ≤ off && off < 0x2380 then
      let c := decAt d ((off - 0x2100) / 16)
      match off % 16 with
      | 0 => regAt d off (lowWord c.gainU.toNat)
      | 4 => highWord c.gainU.toNat
      | 8 => regAt d off (lowWord c.ofsU.toNat)
      | _ => highWord c.ofsU.toNat
    else 0

/-- State number of a receiver (R457). -/
def ainStNum : AinSt → Nat
  | .idle => 0 | .acquire => 1 | .locked => 2

/-- AES3 receiver registers (R519). (log 27: DEDUCED, unsafe.) -/
def readAin (r o : Nat) (d : Device) : BitVec 32 :=
  let p := ainAt d r
  let m := ainMedAt d r
  match o with
  | 0x00 => w32 (p.en.toNat + 2 * p.check + 8 * p.naMute.toNat)
  | 0x04 => w32 (ainStNum p.st + (if p.st = .locked then 16 * p.rate else 0) + 256 * ofBits [m.slip, m.bridge.locked])
  | 0x08 => w32 p.parityErr
  | 0x0C => w32 p.crccErr
  | 0x10 => w32 p.sub0.v1
  | 0x14 => w32 p.sub1.v1
  | 0x18 => w32 p.losses
  | 0x1C => p.sub0.csFn
  | 0x20 => p.sub1.csFn
  | _ =>
    if 0x40 ≤ o && o < 0x58 then byteWord p.sub0.cs ((o - 0x40) / 4)
    else if 0x58 ≤ o && o < 0x70 then byteWord p.sub1.cs ((o - 0x58) / 4)
    else if 0x70 ≤ o && o < 0x88 then byteWord p.sub0.u ((o - 0x70) / 4)
    else if 0x88 ≤ o && o < 0xA0 then byteWord p.sub1.u ((o - 0x88) / 4)
    else 0

/-- AES3 transmitter registers (R520, R521). -/
def readAout (t o : Nat) (d : Device) : BitVec 32 :=
  let p := aoutAt d t
  match o with
  | 0x00 => w32 (ofBits [p.en, p.s0.vTx, p.s1.vTx, p.csSame, false, false, false, false, p.s0.csCommit, p.s1.csCommit,
      p.s0.uCommit, p.s1.uCommit, false, false, false, false, p.stageBusy])
  | 0x04 => w32 p.underrun
  | 0x08 => w32 p.overrun
  | 0x0C => w32 p.blockCut
  | _ =>
    if 0x40 ≤ o && o < 0x58 then byteWord p.s0.csStg ((o - 0x40) / 4)
    else if 0x58 ≤ o && o < 0x70 then byteWord p.s1.csStg ((o - 0x58) / 4)
    else if 0x70 ≤ o && o < 0x88 then byteWord p.s0.uStg ((o - 0x70) / 4)
    else if 0x88 ≤ o && o < 0xA0 then byteWord p.s1.uStg ((o - 0x88) / 4)
    else if 0xA0 ≤ o && o < 0xB8 then byteWord p.s0.csLive ((o - 0xA0) / 4)
    else if 0xB8 ≤ o && o < 0xD0 then byteWord p.s1.csLive ((o - 0xB8) / 4)
    else if 0xD0 ≤ o && o < 0xE8 then byteWord p.s0.uLive ((o - 0xD0) / 4)
    else if 0xE8 ≤ o && o < 0x100 then byteWord p.s1.uLive ((o - 0xE8) / 4)
    else 0

/-- A word of a receive rule (R523). `base` is the rule's offset. -/
def readRule (d : Device) (base : Nat) (r : RxRule) (w : Nat) : BitVec 32 :=
  match w with
  | 0 => w32 (r.en.toNat + 2 * r.match_.toNat + 64 * r.pcp.toNat + 512 * r.vid.toNat + pow2 24 * r.action)
  | 1 => w32 (r.etype.toNat + 65536 * r.daPlen)
  | 2 => regAt d (base + 8) (lowWord r.da.toNat)
  | 3 => highWord r.da.toNat
  | 4 => regAt d (base + 16) (lowWord r.sid.toNat)
  | 5 => highWord r.sid.toNat
  | _ => 0

/-- Offset of port `p`'s block. -/
def portOff (p : Nat) : Nat := 0x10000 + 0x4000 * p

/-- Ethernet port registers (R522). -/
def readPort (p o : Nat) (d : Device) : BitVec 32 :=
  let x := portAt d p
  match o with
  | 0x000 => x.macLow
  | 0x004 => highWord x.mac.toNat
  | 0x008 => if p < 2 then x.ipv4 else 0
  | 0x00C => w32 (ofBits [x.promisc, x.pauseEn] + 4 * x.defQueue + (if p = 3 then 32 * x.eeeEn.toNat else 0)
      + 256 * x.link.toNat)
  | 0x010 => if p = 3 then w32 x.eeeIdle else 0
  | 0x014 => if p = 3 then w32 x.eeeTw else 0
  | 0x018 => w32 x.rxAdj.toNat
  | 0x01C => w32 x.txAdj.toNat
  | 0x024 => w32 x.oneStepFail
  | 0x028 => w32 x.tsqOvf
  | 0x02C => w32 (x.phy + 4 * x.fec + 65536 * x.maxFrame)
  | 0x030 => match x.tsq with | t :: _ => t.htag | [] => 0
  | 0x034 => nth 0 x.tsqW 1
  | 0x038 => nth 0 x.tsqW 2
  | 0x03C => nth 0 x.tsqW 3
  | 0x044 => if p = 3 then w32 (d.eth.mdioBusy.toNat + 65536 * d.eth.mdioData.toNat) else 0
  | _ =>
    if 0x100 ≤ o && o < 0x1A8 then w32 (mget 0 x.stat ((o - 0x100) / 4))
    else if 0x200 ≤ o && o < 0x2A8 then w32 (mget 0 x.snap ((o - 0x200) / 4))
    else if 0x400 ≤ o && o < 0xC00 then
      let k := (o - 0x400) / 32
      readRule d (portOff p + 0x400 + 32 * k) (mget {} x.rules k) (o % 32 / 4)
    else 0

/-- A 32-bit read of an aligned BAR0 offset, as it stands before any effect of the read; unlisted offsets read 0
(R497). -/
def regRead (off : Nat) (e : Env) (d : Device) : BitVec 32 :=
  if off < 0x300 then readId off e d
  else if off < 0x600 then readTime off d
  else if off < 0x800 then readSram off d
  else if off < 0xC00 then readDram ((off - 0x800) / 0x200) (off % 0x200) d
  else if off < 0xD40 then readXlog off d
  else if off < 0x4000 then readDebug off d
  else if off < 0x4800 then readAin ((off - 0x4000) / 0x100) (off % 0x100) d
  else if off < 0x5000 then readAout ((off - 0x4800) / 0x100) (off % 0x100) d
  else if 0x10000 ≤ off && off < 0x20000 then readPort ((off - 0x10000) / 0x4000) (off % 0x4000) d
  else 0

/-- A read with its effect: TIME_NS latches (R429), TSQ_POP pops (R436). The model keeps no cycle count: TIME_NS is read
a free number of cycles after the tick. (log 24: DESIGN CHOICE, safe.) -/
def regReadFx (off : Nat) (e : Env) (d : Device) : BitVec 32 × Device :=
  if off = 0x400 then
    let c := drawCount d
    let t := timeNsRead (Config.freeNat c.1 % 200000) e c.2
    (w32 t.1, t.2)
  else if 0x10000 ≤ off && off < 0x20000 && off % 0x4000 = 0x30 then
    (regRead off e d, tsqPop ((off - 0x10000) / 0x4000) d)
  else (regRead off e d, d)

/-! ## Writes -/

/-- A base register: discarded while RING_GO is set (R507); the low half is held, the high half takes effect. -/
def writeBase (off : Nat) (v : BitVec 32) (d : Device) : Device :=
  if d.ring.go then discardWrite d
  else if off % 8 = 0 then setReg off v d
  else
    let n := BitVec.ofNat 64 (v.toNat * pow2 32 + (regRead (off - 4) { fn := 0, fnx := 0, fnSync := false, mem := [], fails := [] } d).toNat)
    match off with
    | 0x304 => { d with ring := { d.ring with dbBase := n } }
    | 0x30C => { d with ring := { d.ring with tblBase := n } }
    | _ => { d with ring := { d.ring with devBase := n } }

/-- The low half last written of a split field whose value in effect is `eff`. (log 104: DEDUCED, unsafe.) -/
def lowHeld (d : Device) (off eff : Nat) : Nat := (regAt d off (lowWord eff)).toNat

/-- SETUP_STATUS: bits written as 1 clear. -/
def writeStatus (v : BitVec 32) (d : Device) : Device :=
  { d with pwr := { d.pwr with
    clamped := d.pwr.clamped && !v.getLsbD 17, accErr := d.pwr.accErr && !v.getLsbD 16
    quietRefused := d.pwr.quietRefused && !v.getLsbD 12, ringErr := d.pwr.ringErr && !v.getLsbD 11 } }

/-- PWR_CTL: HB_WD_EN is held, QUIET enters or leaves the quiet state (R505). -/
def writePwr (v : BitVec 32) (e : Env) (d : Device) : Device :=
  let d := { d with pwr := { d.pwr with hbWdEn := v.getLsbD 1 } }
  if v.getLsbD 0 then quietEnter e d else quietExit e d

/-- Identity to limit unlock. -/
def writeId (off : Nat) (v : BitVec 32) (e : Env) (d : Device) : Device :=
  match off with
  | 0x020 => writeStatus v d
  | 0x100 => setReg off v d
  | 0x104 => { d with img := { d.img with
      addr := BitVec.ofNat 64 (v.toNat * pow2 32 + lowHeld d 0x100 d.img.addr.toNat) } }
  | 0x108 => { d with img := { d.img with len := v } }
  | 0x10C => if v.getLsbD 0 then imgLoad d else d
  | 0x200 => devReset v d
  | 0x204 => writePwr v e d
  | 0x208 => pwrCycle v d
  | 0x210 => limitUnlock v d
  | _ => d

/-- A servo parameter held between its limits (R440, R498). (log 102: DEDUCED, unsafe.) -/
def writeServo (lo hi v : Int) (f : Nat → ClkState → ClkState) (d : Device) : Device :=
  let r := held lo hi v
  clampWrite r.2 { d with clk := f r.1.toNat d.clk }

/-- A gain of the servo: a value outside its range is discarded (R440, R498). -/
def writeGain (v : BitVec 32) (f : Nat → ClkState → ClkState) (d : Device) : Device :=
  if v.toNat > 65535 then discardWrite d else { d with clk := f v.toNat d.clk }

/-- FREE_TRIM is the frequency word until the first sample is applied (R440). (log 102: DEDUCED, unsafe.) -/
def trimFree (v : Int) (c : ClkState) : ClkState :=
  if c.lastMeas.isNone then { c with freeTrim := v, y := v, yI := v } else { c with freeTrim := v }

/-- Rings, time and clocks. -/
def writeTime (off : Nat) (v : BitVec 32) (e : Env) (d : Device) : Device :=
  let n := v.toNat
  let c := d.clk
  match off with
  | 0x300 => writeBase off v d
  | 0x304 => writeBase off v d
  | 0x308 => writeBase off v d
  | 0x30C => writeBase off v d
  | 0x310 => writeBase off v d
  | 0x314 => writeBase off v d
  | 0x318 =>
    if v.getLsbD 0 then ringGoSet e d
    else if d.ring.go then { d with ring := { d.ring with stopping := true } } else d
  | 0x31C => { d with ring := { d.ring with errVec := n % 32 } }
  | 0x410 => setReg off v d
  | 0x414 => { d with clk := { c with srvOfs := BitVec.ofNat 64 (n * pow2 32 + lowHeld d 0x410 c.srvOfs.toNat) } }
  | 0x418 => { d with clk := { c with srvMeas := v } }
  | 0x41C => if v = 1#32 then srvGo d else d
  | 0x420 => setReg off v d
  | 0x424 => { d with clk := { c with epSecCur := BitVec.ofNat 48 (n * pow2 32 + lowHeld d 0x420 c.epSecCur.toNat) } }
  | 0x428 => { d with clk := { c with epNsCur := v } }
  | 0x42C => setReg off v d
  | 0x430 => { d with clk := { c with epSecNext := BitVec.ofNat 48 (n * pow2 32 + lowHeld d 0x42C c.epSecNext.toNat) } }
  | 0x434 => { d with clk := { c with epNsNext := v } }
  | 0x438 => if v = 1#32 then epGo d else d
  | 0x43C => crefWrite v d
  | 0x440 => writeGain v (fun x k => { k with kp := x }) d
  | 0x444 => writeGain v (fun x k => { k with ki := x }) d
  | 0x448 => writeServo 100 1000000000 n (fun x k => { k with stepThr := x }) d
  | 0x44C => writeServo 1 100000 n (fun x k => { k with lockThr := x }) d
  | 0x450 => writeServo 1 255 (n % 256) (fun x k => { k with lockCnt := x }) d
  | 0x454 => writeServo c.lockThr 10000000 n (fun x k => { k with unlockThr := x }) d
  | 0x458 => writeServo 1 255 (n % 256) (fun x k => { k with unlockCnt := x }) d
  | 0x45C => writeServo 60 600000 n (fun x k => { k with timeout := x }) d
  | 0x460 =>
    let r := held (-yMax) yMax v.toInt
    clampWrite r.2 { d with clk := trimFree r.1 c }
  | 0x464 => writeServo 6 60000 n (fun x k => { k with refQual := x }) d
  | 0x500 => { d with clk := { c with
      regRefused := c.regRefused && !v.getLsbD 12, regDrop := c.regDrop && !v.getLsbD 11
      sysLost := c.sysLost && !v.getLsbD 10 } }
  | _ => d

/-- A write would take from a reserved chain what bits of `old` give it and `new` does not; `chains j` are the chains of
bit `j` (R518). -/
def takesReserved (d : Device) (old new : BitVec 32) (chains : Nat → List Nat) : Bool :=
  (List.range 32).any (fun j => old.getLsbD j && !new.getLsbD j && (chains j).any (chainReserved d))

/-- A split F36 trim of a decimation chain: a value that breaks R60 is discarded, one out of its range is taken as the
nearer limit (R210, R499). -/
def writeTrim (off : Nat) (v : BitVec 32) (lo hi : F36) (eff : F36) (f : F36 → Dec → Dec) (d : Device) : Device :=
  if v.toNat ≥ 16 then discardWrite d
  else
    let x : F36 := BitVec.ofNat 36 (v.toNat * pow2 32 + lowHeld d (off - 4) eff.toNat)
    let y := if flt x lo then lo else if flt hi x then hi else x
    let d := clampWrite (y ≠ x) (setReg (off - 4) (lowWord y.toNat) d)
    modDec ((off - 0x2100) / 16) (f y) d

/-- Debug and pin functions (R516, R518). -/
def writeDebug (off : Nat) (v : BitVec 32) (d : Device) : Device :=
  match off with
  | 0x1000 => setReg off (v &&& 1) d
  | 0x1004 => setReg off v d
  | 0x1008 => { d with regs := { d.regs with
      dbgAddr := BitVec.ofNat 64 (v.toNat * pow2 32 + lowHeld d 0x1004 d.regs.dbgAddr.toNat) } }
  | 0x100C => setReg off v d
  | 0x1010 => setReg off v d
  | 0x1014 => setReg off (v &&& 0xFF) d
  | 0x1018 => setReg off (v &&& 0x1FF) d
  | 0x101C => if v = 1#32 then dbgCmd false d else if v = 2#32 then dbgCmd true d else d
  | 0x1024 => setReg off (v &&& 0x3F) d
  | 0x2000 => setReg off (v &&& 0xFFFF) d
  | 0x2004 =>
    if takesReserved d (readDebug off d) v (fun j => [j]) then discardWrite d else setReg off v d
  | 0x2008 =>
    if takesReserved d (readDebug off d) v (fun j => if j < 8 then [32 + j] else []) then discardWrite d
    else setReg off (v &&& 0xFF) d
  | 0x200C =>
    if takesReserved d (readDebug off d) v (fun j => (List.range 8).map (8 * j + ·)) then discardWrite d
    else setReg off (v &&& 0x1F) d
  | 0x2010 =>
    if bitsOf v 0 2 = 3 || bitsOf v 2 2 = 3 || bitsOf v 4 2 = 3 then discardWrite d else setReg off (v &&& 0x3F) d
  | _ =>
    if 0x2100 ≤ off && off < 0x2380 then
      let c := decAt d ((off - 0x2100) / 16)
      match off % 16 with
      | 4 => writeTrim off v 0x3F0000000#36 0x400000000#36 c.gainU (fun y c => { c with gainU := y }) d
      | 12 => writeTrim off v 0xBE0000000#36 0x3E0000000#36 c.ofsU (fun y c => { c with ofsU := y }) d
      | _ => setReg off v d
    else d

/-- AIN_CTL: in force from the next block start (R461). -/
def writeAin (r o : Nat) (v : BitVec 32) (d : Device) : Device :=
  if o ≠ 0 then d
  else
    let k := bitsOf v 1 2
    clampWrite (k = 3) (modAin r (fun p => { p with en := v.getLsbD 0, check := if k = 3 then 0 else k
                                                    naMute := v.getLsbD 3 }) d)

/-- AOUT_CTL (R521). -/
def writeAoutCtl (t : Nat) (v : BitVec 32) (d : Device) : Device :=
  let d := modAout t (fun p => { p with
    en := v.getLsbD 0, csSame := v.getLsbD 3, stageBusy := p.stageBusy && !v.getLsbD 16
    s0 := { p.s0 with vTx := v.getLsbD 1 }, s1 := { p.s1 with vTx := v.getLsbD 2 } }) d
  when (v.getLsbD 11) (uCommit t 1) (when (v.getLsbD 10) (uCommit t 0)
    (when (v.getLsbD 9) (csCommit t 1) (when (v.getLsbD 8) (csCommit t 0) d)))

/-- A write of a staging word: ignored with STAGE_BUSY while its commit is set (R463, R464). -/
def writeStage (t sub : Nat) (user : Bool) (i : Nat) (v : BitVec 32) (d : Device) : Device :=
  let p := aoutAt d t
  let s := if sub = 0 then p.s0 else p.s1
  if (if user then s.uCommit else s.csCommit) then setAout t { p with stageBusy := true } d
  else
    let s := if user then { s with uStg := putWord s.uStg i v } else { s with csStg := putWord s.csStg i v }
    setAout t (if sub = 0 then { p with s0 := s } else { p with s1 := s }) d

/-- AES3 transmitter registers (R520). -/
def writeAout (t o : Nat) (v : BitVec 32) (d : Device) : Device :=
  if o = 0 then writeAoutCtl t v d
  else if 0x40 ≤ o && o < 0x58 then writeStage t 0 false ((o - 0x40) / 4) v d
  else if 0x58 ≤ o && o < 0x70 then writeStage t 1 false ((o - 0x58) / 4) v d
  else if 0x70 ≤ o && o < 0x88 then writeStage t 0 true ((o - 0x70) / 4) v d
  else if 0x88 ≤ o && o < 0xA0 then writeStage t 1 true ((o - 0x88) / 4) v d
  else d

/-- A word of a receive rule (R523). (log 97: DEDUCED, unsafe.) -/
def writeRule (p k w : Nat) (v : BitVec 32) (d : Device) : Device :=
  let x := portAt d p
  let r := mget {} x.rules k
  let base := portOff p + 0x400 + 32 * k
  let put := fun (r : RxRule) (d : Device) => modPort p (fun x => { x with rules := mset {} x.rules k r }) d
  match w with
  | 0 =>
    if bitsOf v 24 4 > 8 || r.daPlen > 48 then discardWrite d
    else put { r with en := v.getLsbD 0, match_ := BitVec.ofNat 5 (bitsOf v 1 5), pcp := BitVec.ofNat 3 (bitsOf v 6 3)
                      vid := BitVec.ofNat 12 (bitsOf v 9 12), action := bitsOf v 24 4 } d
  | 1 =>
    if r.en then discardWrite d
    else put { r with etype := BitVec.ofNat 16 (bitsOf v 0 16), daPlen := bitsOf v 16 6 } d
  | 2 => if r.en then discardWrite d else setReg (base + 8) v d
  | 3 =>
    if r.en then discardWrite d
    else put { r with da := BitVec.ofNat 48 (v.toNat * pow2 32 + lowHeld d (base + 8) r.da.toNat) } d
  | 4 => if r.en then discardWrite d else setReg (base + 16) v d
  | 5 =>
    if r.en then discardWrite d
    else put { r with sid := BitVec.ofNat 64 (v.toNat * pow2 32 + lowHeld d (base + 16) r.sid.toNat) } d
  | _ => d

/-- Ethernet port registers (R522); a register that the port lacks discards the write. (log 103: DEDUCED, unsafe.) -/
def writePort (p o : Nat) (v : BitVec 32) (d : Device) : Device :=
  let mac := fun (x : Port) => BitVec.ofNat 48 (v.toNat * pow2 32 + x.macLow.toNat)
  match o with
  | 0x000 => modPort p (fun x => { x with macLow := v }) d
  | 0x004 => modPort p (fun x => { x with mac := mac x }) d
  | 0x008 => if p < 2 then modPort p (fun x => { x with ipv4 := v }) d else discardWrite d
  | 0x00C => modPort p (fun x => { x with
      promisc := v.getLsbD 0, pauseEn := v.getLsbD 1, defQueue := bitsOf v 2 3, eeeEn := p = 3 && v.getLsbD 5 }) d
  | 0x010 =>
    if p ≠ 3 then discardWrite d
    else
      let r := held 10 10000 v.toNat
      clampWrite r.2 (modPort p (fun x => { x with eeeIdle := r.1.toNat }) d)
  | 0x014 =>
    if p ≠ 3 then discardWrite d
    else
      let r := held 17 1000 v.toNat
      clampWrite r.2 (modPort p (fun x => { x with eeeTw := r.1.toNat }) d)
  | 0x018 => modPort p (fun x => { x with rxAdj := BitVec.ofNat 16 v.toNat }) d
  | 0x01C => modPort p (fun x => { x with txAdj := BitVec.ofNat 16 v.toNat }) d
  | 0x020 => if v = 1#32 then statClear p d else d
  | 0x040 =>
    if p ≠ 3 then discardWrite d
    else mdioCmd (bitsOf v 10 3) (BitVec.ofNat 5 (bitsOf v 0 5)) (BitVec.ofNat 5 (bitsOf v 5 5))
      (BitVec.ofNat 16 (bitsOf v 16 16)) d
  | _ => if 0x400 ≤ o && o < 0xC00 then writeRule p ((o - 0x400) / 32) (o % 32 / 4) v d else d

/-- A 32-bit write of an aligned BAR0 offset. Unlisted and read-only offsets ignore it (R497).
(log 103: DEDUCED, unsafe.) -/
def regWrite (off : Nat) (v : BitVec 32) (e : Env) (d : Device) : Device :=
  if off < 0x300 then writeId off v e d
  else if off < 0x600 then writeTime off v e d
  else if off = 0x600 then { d with mem := { d.mem with patrolEn := v.getLsbD 0 } }
  else if off < 0x1000 then d
  else if off < 0x4000 then writeDebug off v d
  else if off < 0x4800 then writeAin ((off - 0x4000) / 0x100) (off % 0x100) v d
  else if off < 0x5000 then writeAout ((off - 0x4800) / 0x100) (off % 0x100) v d
  else if 0x10000 ≤ off && off < 0x20000 then writePort ((off - 0x10000) / 0x4000) (off % 0x4000) v d
  else d

/-- A write of `size` bytes: four at a multiple of four, eight at a multiple of eight as two, lower address first; any
other size is discarded (R497). -/
def regAccess (off size : Nat) (v : BitVec 64) (e : Env) (d : Device) : Device :=
  if size = 4 && off % 4 = 0 then regWrite off (v.setWidth 32) e d
  else if size = 8 && off % 8 = 0 then
    regWrite (off + 4) (BitVec.ofNat 32 (v.toNat / pow2 32)) e (regWrite off (v.setWidth 32) e d)
  else discardWrite d

/-- REGISTER_WRITE (R497). -/
def execRegisterWrite (offset size : Nat) (value : BitVec 64) (s : State) : Host.Outcome State Fault Refusal :=
  hostAct (fun e d => when (decide (offset + size ≤ 0x100000)) (regAccess offset size value e) d) s

end Sys2Proof.Machine
end

