-- ==== Sys2Proof/Machine/XbarDone.lean ====
section
/-! DEFINITION. What a crossbar transaction does at its target, its response codes, the error log and the completion
(R356, R360, R362, R377 to R380, R389, R391, R516). -/
namespace Sys2Proof.Machine

/-- Response codes (R377). -/
def codeOkay : Nat := 0
/-- Log 66: DESIGN CHOICE, safe. -/
def codeWcoll : Nat := 1
def codeSlverr : Nat := 2
def codeDecerr : Nat := 3

/-- What one word of a transaction gives: code, data read, device, the uncorrectable shared-store words met. -/
structure WordRes where
  code : Nat := 0
  data : Word72 := 0
  dev : Device
  ue : List Nat := []

/-- A word with the bytes of `mask` taken from `new`. -/
def maskWord (old new : Word72) (mask : Nat) : Word72 :=
  BitVec.ofNat 72 (leNat ((List.range 9).map (fun j =>
    BitVec.ofNat 8 ((if bit mask j then new.toNat else old.toNat) / pow2 (8 * j)))))

/-- Write strobes of word `i`; a request that gives none enables every lane. -/
def strobeOf (r : XReq) (i : Nat) : Nat := (nth 0x1FF#9 r.strobes i).toNat
def dataOf (r : XReq) (i : Nat) : Word72 := nth 0 r.data i

/-- Write bytes of a shared-store word. A partial write reads the word: of a bad one it fails and leaves it, an error of one bit
is corrected and counted (R356). Words of `coll` met a cluster's write in the same cycle (R360). -/
def storePut (coll : List Nat) (w : Nat) (v : Word72) (mask : Nat) (d : Device) : WordRes :=
  if mask = 0 then { dev := d }
  else if coll.contains w then { code := codeWcoll, dev := d }
  else if d.mem.bad.contains w && mask ≠ 0x1FF then { code := codeSlverr, dev := d, ue := [w] }
  else
    let d := when (mask ≠ 0x1FF) (writeBack (.store w)) d
    { dev := cleanStore w 1 { d with mem := { d.mem with
        store := mset 0 d.mem.store w (maskWord (mget 0 d.mem.store w) v mask) } } }

/-- Read a shared-store word. -/
def storeGet (w : Nat) (d : Device) : WordRes :=
  if d.mem.bad.contains w then { code := codeSlverr, data := mget 0 d.mem.store w, dev := d, ue := [w] }
  else { data := mget 0 d.mem.store w, dev := d }

/-- One word of the sample view: lane `j` of it is sample `s` + `j` (R362). -/
def sampleWord (coll : List Nat) (r : XReq) (i s : Nat) (d : Device) : WordRes :=
  (List.range 3).foldl (fun (a : WordRes) j =>
    let p := s + j
    if p ≥ 0x300000 then { a with code := codeDecerr }
    else if r.write then
      let m := strobeOf r i / pow2 (3 * j) % 8
      let v := setLane 0 (p % 3) (laneOf (dataOf r i) j)
      let q := storePut coll (p / 3) v (m * pow2 (3 * (p % 3))) a.dev
      { q with code := max a.code q.code, ue := a.ue ++ q.ue }
    else
      let q := storeGet (p / 3) a.dev
      { code := max a.code q.code, data := setLane a.data j (laneOf q.data (p % 3)), dev := q.dev, ue := a.ue ++ q.ue })
    { dev := d }

/-- Word `i` at the shared store. -/
def storeWord (coll : List Nat) (r : XReq) (i : Nat) (d : Device) : WordRes :=
  if r.addr ≥ 0x4000000 then sampleWord coll r i (r.addr - 0x4000000 + 3 * i) d
  else
    let w := r.addr + i
    if w ≥ 0x100000 then { code := codeDecerr, dev := d }
    else if r.write then storePut coll w (dataOf r i) (strobeOf r i) d
    else storeGet w d

/-- Word `i` at a DRAM channel (R389, R391): after three failed replays every beat fails (R397). -/
def dramBeat (t : Nat) (r : XReq) (i : Nat) (e : Env) (d : Device) : WordRes :=
  let w := r.addr + i - 0x1000000000
  let touch := i = 0 || 8 * w % 64 = 0
  if (dchAt d t).failNow then { code := codeSlverr, dev := d }
  else if r.write then
    let q := dramWrite touch w ((dataOf r i).toNat % pow2 64) (BitVec.ofNat 8 (strobeOf r i)) r.master e d
    { code := if q.2.1 then codeDecerr else if q.1 then codeSlverr else codeOkay, dev := q.2.2 }
  else
    let q := dramRead touch w r.master e d
    { code := if q.2.2.1 then codeDecerr else if q.2.1 then codeSlverr else codeOkay
      data := BitVec.ofNat 72 (q.1 % pow2 64), dev := q.2.2.2 }

/-- Word `i` at a bay write port (R87, R371): lanes as enabled; a whole word replaces a bad one. -/
def bayWord (r : XReq) (i : Nat) (d : Device) : WordRes :=
  let k := r.addr + i - 0x10000000
  if k ≥ 0x800000 then { code := codeDecerr, dev := d }
  else
    let m := strobeOf r i
    let q := bayPhys d k
    let d := { d with xp := { d.xp with words := mset 0 d.xp.words q (maskWord (mget 0 d.xp.words q) (dataOf r i) m) } }
    { dev := if m = 0x1FF then cleanBay [q] d else d }

/-- A half word of the set-up block written under four strobes (R497). (log 64: DEDUCED, unsafe.) -/
def setupHalf (off : Nat) (v : BitVec 32) (mask : Nat) (e : Env) (d : Device) : Device :=
  if mask = 15 then regWrite off v e d else if mask = 0 then d else discardWrite d

/-- Word `i` at the set-up block (R370, R516): the debug port is not served at offsets 0x1000 to 0x1FFF.
(log 64: DEDUCED, unsafe.) -/
def setupWord (r : XReq) (i : Nat) (e : Env) (d : Device) : WordRes :=
  let w := r.addr + i - 0x20000000
  let off := 8 * w
  if w ≥ 0x20000 || (r.master = 17 && 0x1000 ≤ off && off < 0x2000) then { code := codeDecerr, dev := d }
  else if r.write then
    let v := (dataOf r i).toNat
    let m := strobeOf r i
    let d := setupHalf off (w32 v) (m % 16) e d
    { dev := setupHalf (off + 4) (w32 (v / pow2 32)) (m / 16 % 16) e d }
  else
    let a := regReadFx off e d
    let b := regReadFx (off + 4) e a.2
    { data := BitVec.ofNat 72 (a.1.toNat + pow2 32 * b.1.toNat), dev := b.2 }

/-- Word `i` at the PCI Express outbound path: bytes 0 to 7 of the word. (log 64: DEDUCED, unsafe.) -/
def hostWord (r : XReq) (i : Nat) (e : Env) (d : Device) : WordRes :=
  let a := r.addr + 8 * i
  if r.write then
    let m := strobeOf r i
    let b := leBytes 8 (dataOf r i).toNat
    { dev := forAll ((List.range 8).filter (bit m)) (fun j d => post (a + j) [nth 0 b j] d) d }
  else match dmaRead e d a 8 with
    | some b => { data := BitVec.ofNat 72 (leNat b), dev := d }
    | none => { code := codeSlverr, dev := d }

/-- Word `i` of a transaction at target `t`. (log 62: DEDUCED, unsafe.) -/
def wordAt (coll : List Nat) (t : Nat) (r : XReq) (i : Nat) (e : Env) (d : Device) : WordRes :=
  if t < 2 then dramBeat t r i e d
  else if t < 6 then storeWord coll r i d
  else if t < 22 then bayWord r i d
  else if t = 22 then setupWord r i e d
  else if t = 23 then hostWord r i e d
  else { code := codeDecerr, dev := d }

/-- The first `n` words of a transaction: codes and data by word. An uncorrectable store word counts once in it (R356).
(log 62: DEDUCED, unsafe.) -/
def runWords (coll : List Nat) (t : Nat) (r : XReq) (n : Nat) (e : Env) (d : Device) : List Nat × List Word72 × Device :=
  let q := (List.range n).foldl (fun (a : List Nat × List Word72 × List Nat × Device) i =>
    let q := wordAt coll t r i e a.2.2.2
    (a.1 ++ [q.code], a.2.1 ++ [q.data], a.2.2.1 ++ q.ue, q.dev)) ([], [], [], d)
  (q.1, q.2.1, forAll q.2.2.1.eraseDups ueStore q.2.2.2)

/-- Codes of the beats of up to eight words: a beat fails with its worst word. -/
def beatCodes (l : List Nat) : List Nat := (chunks 8 l).map (fun c => c.foldl max 0)

/-- One entry of the error log and the count of its code (R380, R515). -/
def xbarLog (master target code addr : Nat) (e : Env) (d : Device) : Device :=
  let x := d.xbar
  let n : XLogEntry :=
    { master := master, target := target, code := code, addr := addr % pow2 40, fn := e.fn, seq := x.seq + 1 }
  let slot := x.seq % 16
  { d with xbar := { x with
    seq := x.seq + 1, log := if slot < x.log.length then x.log.set slot n else x.log ++ [n]
    decerr := if code = codeDecerr then inc32 x.decerr else x.decerr
    slverr := if code = codeSlverr then inc32 x.slverr else x.slverr
    wcoll := if code = codeWcoll then inc32 x.wcoll else x.wcoll } }

/-- Log the failed beats of a response. -/
def logBeats (t : Nat) (r : XReq) (codes : List Nat) (e : Env) (d : Device) : Device :=
  forAll codes.zipIdx (fun c d =>
    if c.1 = codeOkay then d
    else xbarLog r.master t c.1 (r.addr + (if r.host then 64 else 8) * c.2) e d) d

/-- Function ID of an engine that receives an error response (R14). (log 22: DESIGN CHOICE, safe.) -/
def masterFunc (m : Nat) : Nat := nth 0 [0x71, 0x72, 0x70, 0x73, 0x00, 0x00, 0x00, 0x00, 0x74] (m - 8)

/-- The outputs whose running frame an engine's failed transaction was producing: those in whose convolution slot or bulk line its
words lie (R378). -/
def hurtOutputs (d : Device) (r : XReq) : List Nat :=
  if r.host || r.addr < 0x1000000000 then []
  else
    let i := cfg d
    let lo := 8 * (r.addr - 0x1000000000)
    let hi := lo + 8 * r.words
    let meets := fun (base len : Nat) => decide (base < hi) && decide (lo < base + len)
    let slots := (convOuts i).zipIdx.filter (fun p => meets (i.cveBase + p.2 * slotBytes i) (slotBytes i))
    let lines := (List.range i.nOut).filter (fun n => i.outBulkEn && meets (i.outBulkBase + n * 2097280) 2097280)
    slots.map (·.1) ++ lines

/-- What a hardware fault of kind 1 ends (R378): the evaluation that GEO runs; the frames that the CVE and the egress engine
produce with the words concerned are overruns. (log 65: DEDUCED, unsafe.) -/
def abandonOp (r : XReq) (d : Device) : Device :=
  if r.master = 10 then { d with geo := { d.geo with failed := d.geo.running } }
  else if r.master = 9 || r.master = 14 then forAll (hurtOutputs d r) (fun n => modOut n (fun o => { o with failed := true })) d
  else d

/-- What the master of a response does with it: an engine without a rule of its own counts a hardware fault of kind 1, which a
failure of host memory is not (R262, R377, R378); the debug port latches it (R516). (log 65: DEDUCED, unsafe.) -/
def respond (t : Nat) (r : XReq) (codes : List Nat) (data : List Word72) (e : Env) (d : Device) : Device :=
  let worst := codes.foldl max 0
  let d := { d with xbar := { d.xbar with answers := mset ([], []) d.xbar.answers r.master (codes, data) } }
  if r.master = 17 then
    let v := (nth 0 data 0).toNat
    let d := if r.write then d
      else setReg 0x100C (w32 v) (setReg 0x1010 (w32 (v / pow2 32)) (setReg 0x1014 (w32 (v / pow2 64)) d))
    { d with regs := { d.regs with dbgBusy := false, dbgResp := worst } }
  else if worst ≠ codeOkay && 8 ≤ r.master && t ≠ 23 then abandonOp r (hwFault 1 (masterFunc r.master) e d)
  else d

/-- A read of the same master, issued before the read `p`, has not been answered: it waits, is in service, or is held (R376).
(log 63: DEDUCED, unsafe.) -/
def readBefore (d : Device) (p : XPending) : Bool :=
  let all := d.xbar.waiting.flatMap (·.2) ++ d.xbar.serving.filterMap (·.2) ++ d.xbar.held.map (·.2.1)
  all.any (fun q => q.req.master = p.req.master && !q.req.write && decide (q.order < p.order))

/-- Responses to reads reach their master in issue order (R376): the held ones that nothing precedes any longer go out. -/
def releaseHeld (e : Env) (d : Device) : Device :=
  foldN d.xbar.held.length (fun d _ =>
    match d.xbar.held.find? (fun h => !readBefore d h.2.1) with
    | none => d
    | some h =>
      let d := { d with xbar := { d.xbar with held := d.xbar.held.filter (fun x => x.2.1.order ≠ h.2.1.order) } }
      respond h.1 h.2.1.req h.2.2.1 h.2.2.2 e d) d

/-- A granted transaction of a master in reset: a write has stored a free number of its words and sends the rest with no
strobe set, a read is absorbed; failed beats are logged (R379, R380). (log 65: DEDUCED, unsafe.)
(log 22: DESIGN CHOICE, safe.) -/
def absorb (t : Nat) (r : XReq) (e : Env) (d : Device) : Device :=
  let c := drawCount d
  let n := if r.write then Config.freeNat c.1 % (r.words + 1) else r.words
  let q := runWords [] t r n e c.2
  let rest := if r.write && t = defaultTarget then List.replicate (r.words - n) codeDecerr else []
  logBeats t r (beatCodes (q.1 ++ rest)) e q.2.2

/-- The store words that a write request reaches. -/
def writesStore (r : XReq) (w : Nat) : Bool :=
  r.write && !r.host &&
    (if r.addr < 0x100000 then decide (r.addr ≤ w) && decide (w < r.addr + r.words)
     else between 0x4000000 0x42FFFFF r.addr &&
       decide ((r.addr - 0x4000000) / 3 ≤ w) && decide (3 * w < r.addr - 0x4000000 + 3 * r.words))

/-- A cluster lane is writing store word `w`: by a request in service, or by a core's transfer (R360).
(log 66: DESIGN CHOICE, safe.) -/
def laneWrites (d : Device) (w : Nat) : Bool :=
  (List.range 8).any (fun m => (serving d (32 + m)).any (fun p => writesStore p.req w))
    || d.cores.any (fun c => (c.2.xfers ++ c.2.sxfers).any (fun p => p.2.any (fun x =>
      writesStore { master := c.1 / 8, addr := x.addr, write := x.write, words := x.count } w)))

/-- A transaction in service completes. Of a write at port 2 or 3, the words of `met` that a cluster lane writes as well met that
write in one cycle: they are discarded (R360). (log 66: DESIGN CHOICE, safe.) -/
def complete (met : List Nat) (k t : Nat) (p : XPending) (e : Env) (d : Device) : Device :=
  let r := p.req
  let coll := if t = 4 || t = 5 then met.filter (laneWrites d) else []
  let d0 := setServing k none d
  let d :=
    if d.xbar.resetting.contains r.master then absorb t r e d0
    else
      let q := runWords coll t r r.words e d0
      let codes := beatCodes q.1
      let d := logBeats t r codes e q.2.2
      if !r.write && readBefore d p then { d with xbar := { d.xbar with held := d.xbar.held ++ [(t, p, codes, q.2.1)] } }
      else respond t r codes q.2.1 e d
  releaseHeld e (when (t < 2) (dramBoundary t) d)

/-- The lane of a shared-store port whose transaction has been longest in service. -/
def oldestLane (d : Device) (t : Nat) : Option XPending :=
  ((List.range 4).filterMap (fun j => serving d (32 + 4 * (t - 2) + j))).foldl (fun b p => match b with
    | none => some p
    | some q => if p.order < q.order then some p else some q) none

/-- TRANSACTION_DONE: the transaction in service at a target completes; a channel that waits for ALERT_N completes none.
(log 22: DESIGN CHOICE, safe.) -/
def transactionDone (met : List Nat) (t : Nat) (e : Env) (d : Device) : Device :=
  if t < 2 && (dchAt d t).alert then d
  else match (if isLane t then oldestLane d t else serving d t) with
    | some p => complete met (serveKey t p.req.master) t p e d
    | none => d

def execTransactionDone (served : Served) (s : State) : Host.Outcome State Fault Refusal :=
  act (fun e d => when (served.target < 25) (transactionDone served.collided served.target e) d) s

end Sys2Proof.Machine
end

