-- ==== Sys2Proof/Machine/Transfers.lean ====
section
/-! DEFINITION. The transfers of the render cores at the crossbar (R338, R346, R362, R373, R377 to R380): their transactions, what
their completion does to the core, and the port's end of the transfers of an aborted task. -/
namespace Sys2Proof.Machine

/-- The request that stands for words `at_` to `at_ + n` of a core's transfer; its QoS is that of its task's class (R373). -/
def xferReq (core at_ n : Nat) (bg : Bool) (x : Xfer) (data : List Word72) : XReq :=
  let sample := decide (0x4000000 ≤ x.addr) && decide (x.addr < 0x4300000)
  { master := core / 8, addr := x.addr + (if sample then 3 * at_ else at_), write := x.write, words := n
    data := (data.drop at_).take n, background := bg }

/-- A transfer as transactions of at most 64 beats, in address order (R373). -/
def xferParts (core : Nat) (bg : Bool) (x : Xfer) (data : List Word72) : List XReq :=
  (List.range ((x.count + 511) / 512)).map (fun i => xferReq core (512 * i) (min 512 (x.count - 512 * i)) bg x data)

/-- What the words of a transfer gave: whether a beat ended in an error, the words read, the device. -/
structure XferOut where
  err : Bool := false
  words : List Word72 := []
  d : Device

/-- The transactions of a transfer in order, with up to `n` words: failed beats are logged (R380). A transaction at DRAM wakes its
channel and ends at its boundary (R400, R393). -/
def runParts (parts : List XReq) (n : Nat) (e : Env) (d : Device) : XferOut :=
  parts.foldl (fun (o : XferOut) r =>
    let t := targetOf o.d r
    let left := n - o.words.length
    let d := when (t < 2) (selfRefWake t) o.d
    let q := runWords [] t r (min r.words left) e d
    let codes := beatCodes q.1
    let d := logBeats t r codes e q.2.2
    { err := o.err || codes.any (· ≠ codeOkay), words := o.words ++ q.2.1, d := when (t < 2) (dramBoundary t) d }) { d := d }

/-- Where a transfer of a core stands: of an aborted task, of the suspended one, of the running one. -/
inductive XferHome where
  | dead | saved | live
deriving DecidableEq, Repr

/-- Every transfer of a core: where it stands, its tag. -/
def allXfers (c : CoreState) : List (XferHome × Nat × Xfer) :=
  let live := fun (h : XferHome) (m : SMap (Option Xfer)) => m.filterMap (fun p => p.2.map (fun x => (h, p.1, x)))
  c.dead.map (fun p => (XferHome.dead, p.1, p.2)) ++ live .saved c.sxfers ++ live .live c.xfers

/-- The oldest transfer of a core: they are performed in issue order (R338). -/
def oldestXfer (c : CoreState) : Option (XferHome × Nat × Xfer) :=
  (allXfers c).foldl (fun b p => match b with
    | none => some p
    | some q => if p.2.2.ord < q.2.2.ord then some p else some q) none

/-- A channel that waits for ALERT_N completes nothing of the transfer (R397). -/
def xferStuck (d : Device) (parts : List XReq) : Bool :=
  parts.any (fun r => let t := targetOf d r; t < 2 && (dchAt d t).alert)

/-- Cycles that a core waited are added to CYC; the model does not know how many. (log 14: DESIGN CHOICE, safe.) -/
def addWait (core : Nat) (d : Device) : Device :=
  let r := (coreAt d core).regs
  if r.stalled || r.waitMask.isSome || r.doneWait then
    let c := drawCount d
    modCore core (fun s => { s with regs := { s.regs with cyc := satCyc (s.regs.cyc + Config.freeNat c.1), stalled := false } }) c.2
  else d

/-- After a transfer of the running task: an error faults it, a wait that is over ends. -/
def xferAfter (core tag : Nat) (err : Bool) (e : Env) (d : Device) : Device :=
  let d := addWait core d
  let bit : BitVec 4 := 1#4 <<< tag
  let d := modCore core (fun c => { c with
    xfers := mset none c.xfers tag none,
    regs := { c.regs with xe := if err then c.regs.xe ||| bit else c.regs.xe &&& ~~~bit } }) d
  if err then coreFault core 0x06 e d
  else
    let c := coreAt d core
    match c.regs.waitMask with
    | some m => if busyTags c &&& m = 0 then setCore core (passWait c) d else d
    | none => if c.regs.doneWait && busyTags c = 0 then finishTask core e d else d

/-- After a transfer of the suspended task: an error abandons it (R349), and the port completes its other transfers (R379).
(log 55: DEDUCED, unsafe.) -/
def xferAfterSaved (core tag : Nat) (err : Bool) (d : Device) : Device :=
  let bit : BitVec 4 := 1#4 <<< tag
  let d := modCore core (fun c => { c with
    sxfers := mset none c.sxfers tag none, saved := c.saved.map (fun r => { r with xe := r.xe &&& ~~~bit }) }) d
  if !err then d
  else
    let pc := match (coreAt d core).saved with | some r => r.pc.toNat | none => 0
    let d := modCore core (fun c => { orphanXfers c.sxfers c with
      saved := none, sxfers := [], fcause := BitVec.ofNat 32 (0x06 * pow2 24 + pc) }) d
    match (cslotAt d core).suspended with
    | none => d
    | some w => clearWork core (trace 5 core w.task w.frame 2 (modCslot core (fun s => { s with suspended := none }) d))

/-- A transfer of an aborted task ends (R379): a write had sent a free number of its words, the rest goes with no strobe set; a read
is absorbed. (log 65: DEDUCED, unsafe.) -/
def xferDead (core : Nat) (x : Xfer) (bg : Bool) (e : Env) (d : Device) : Device :=
  let c := drawCount d
  let n := if x.write then Config.freeNat c.1 % (x.data.length + 1) else x.count
  let d := (runParts (xferParts core bg x x.data) n e c.2).d
  modCore core (fun s => { s with dead := s.dead.filter (fun p => p.2.ord ≠ x.ord) }) d

/-- A live transfer moves its words, and what follows for its task. An uncorrectable scratch word that a write reads loses the core
(R313). -/
def xferLive (core tag : Nat) (old : Bool) (x : Xfer) (bg : Bool) (e : Env) (d : Device) : Device :=
  let c := coreAt d core
  match (if x.write then c.bad.find? (fun w => decide (x.scratch ≤ w) && decide (w < x.scratch + x.count)) else none) with
  | some w => coreEcc core w e d
  | none =>
    let o := runParts (xferParts core bg x (xferWords c x)) x.count e d
    let d := if x.write then o.d
      else modCore core (putScratch (o.words.zipIdx.map (fun p => (x.scratch + p.2, p.1)))
        (fun w => decide (x.scratch ≤ w) && decide (w < x.scratch + x.count))) o.d
    if old then xferAfterSaved core tag o.err d else xferAfter core tag o.err e d

/-- A core's transfer is one of background work: it alone reaches DRAM (R338). -/
def xferBg (d : Device) (core : Nat) (h : XferHome) : Bool :=
  match h with
  | .live => (coreCtx d core).background
  | _ => true

/-- XFER_COMPLETE (R338): the oldest transfer of the core on its tag moves its words. -/
def xferComplete (core tag : Nat) (e : Env) (d : Device) : Device :=
  match oldestXfer (coreAt d core) with
  | none => d
  | some (h, t, x) =>
    let bg := xferBg d core h
    if t ≠ tag || xferStuck d (xferParts core bg x []) then d
    else match h with
      | .dead => xferDead core x bg e d
      | .saved => xferLive core tag true x bg e d
      | .live => xferLive core tag false x bg e d

def execXferComplete (core : Nat) (tag : BitVec 2) (s : State) : Host.Outcome State Fault Refusal :=
  act (fun e d => when (core < 64) (xferComplete core tag.toNat e) d) s

/-! ## Warm reset (R379, R490) -/

/-- Every granted burst and every transfer of every master completes as R379 says before a warm reset resets the crossbar. -/
def absorbAll (e : Env) (d : Device) : Device :=
  let d := forAll (d.xbar.serving.filterMap (·.2)) (fun p d => absorb (targetOf d p.req) p.req e d) d
  forAll (List.range 64) (fun k d =>
    let d := modCore k (fun c => { orphanXfers c.xfers (orphanXfers c.sxfers c) with xfers := [], sxfers := [] }) d
    forAll ((coreAt d k).dead.map (·.2)) (fun x => xferDead k x true e) d) d

end Sys2Proof.Machine
end

