-- ==== Sys2Proof/Machine/Power.lean ====
section
/-! DEFINITION. Supplies, reset and temperature (chapter 17, R443): power-up, the causes of a warm reset, the warm reset
itself with what it keeps (R491), its end, and the power-cycle request (R494). -/
namespace Sys2Proof.Machine

/-! ## Gates and causes -/

/-- Every gate low over the asynchronous path (R198, R490). -/
def allGatesLow (d : Device) : Device := forAll (List.range 16) gatesOff d

/-- A reset cause whose gates go low at once. -/
def gatesReset (bit : Nat) (d : Device) : Device := wantReset bit (allGatesLow d)

/-- A junction temperature is measured (R475, R502). -/
def noteTemp (t : Int) (d : Device) : Device :=
  { d with pwr := { d.pwr with temp := t, tempMax := max d.pwr.tempMax t } }

/-- Junction temperature in whole °C for an event. -/
def tempDetail (t : Int) : List Byte := leBytes 2 (uext 16 (Int.fdiv t 16))

/-- TEMP_WARN: 105 °C reached: reported once per excursion, a cause of withdrawal (R193, R240, R241).
(log 111: DEDUCED, unsafe.) -/
def tempWarn (t : Int) (e : Env) (d : Device) : Device :=
  if t < 1680 || d.pair.thermalNow then d
  else
    let d := raise 0x2011 0 (tempDetail t) e (noteTemp t d)
    noteCause causeThermal { d with pair := { d.pair with thermalNow := true } }

/-- THERMAL_SHUTDOWN: 120 °C reached: every gate low, every channel in SAFE, warm reset with cause THERMAL (R193,
R492). -/
def thermalShutdown (t : Int) (e : Env) (d : Device) : Device :=
  if t < 1920 || d.pwr.thermalHold then d
  else
    let d := raise 0x4006 0 (tempDetail t) e (noteTemp t d)
    let d := when d.pwr.spoke (forAll ((List.range 16).filter (pchConfigured d)) (toSafe 5 e)) (allGatesLow d)
    wantReset 5 { d with pwr := { d.pwr with thermalHold := true } }

/-- THERMAL_RECOVER: below 100 °C. -/
def thermalRecover (t : Int) (d : Device) : Device :=
  if t < 1600 then { d with pwr := { d.pwr with thermalHold := false } } else d

/-- SYS_PLL_LOSS (R443). -/
def pllLoss (d : Device) : Device :=
  if !d.clk.sysLocked then d
  else
    let d := gatesReset 4 d
    { d with clk := { d.clk with sysLocked := false, sysLosses := inc32 d.clk.sysLosses }
             pwr := { d.pwr with pllHold := true } }

/-- SYS_PLL_LOCK: device time starts at the first lock after power-up, a reset by loss of lock may end (R428, R443). -/
def pllLock (d : Device) : Device :=
  if d.clk.sysLocked then d
  else { d with clk := { d.clk with sysLocked := true, timeOn := true }, pwr := { d.pwr with pllHold := false } }

/-- PWR_CYCLE_REQ: asked for, and the withdrawal two frames old: the gates go low, the pin goes low, the device holds
itself in warm reset until its supplies fall (R494). (log 110: DEDUCED, unsafe.) -/
def cycleReq (d : Device) : Device :=
  if !(d.pwr.wdAsked || d.pwr.hostAsked) || d.pair.delayed.isSome || d.pwr.cycleReq then d
  else
    let d := gatesReset (if d.pwr.wdAsked then 6 else 2) d
    { d with pwr := { d.pwr with cycleReq := true, cycleHold := true } }

/-! ## Release of reset -/

/-- The role at a release of reset: the committed one, else the strap sampled at the latest rising edge of RESET_N (R1,
R473). -/
def roleAt (d : Device) : Bool := if committedRole d = 0 then d.pwr.spoke else committedRole d = 2

/-- The device leaves reset: RESET_CAUSE, OTP read with its factory CRC, set-up status (R475, R476, R491).
(log 20: DESIGN CHOICE, safe; log 106: DEDUCED, unsafe.) -/
def release (cause : BitVec 7) (d : Device) : Device :=
  { d with jrn := { d.jrn with otpFail := Config.otpFails }, pwr := { d.pwr with
    inReset := false, cause := cause, nextCause := 0, spoke := roleAt d, otpRead := true
    setupReady := d.pwr.sramClear && d.clk.sysLocked } }

/-- Journal slots that were written and do not hold a valid record are reported at power-up (R218). -/
def journalBad (e : Env) (d : Device) : Device :=
  forAll d.jrn.slots.zipIdx (fun p d => if p.1.valid then d else raise 0x3008 0 (leBytes 1 p.2) e d) d

/-- A commit whose programming a loss of power or a reset interrupts leaves a slot that is not valid (R221); one that waits for it
is lost. (log 25: DEDUCED, unsafe.) -/
def cutCommit (d : Device) : JournalState :=
  let cut := (d.jrn.committing.take 1).map (fun q => { q.2 with valid := false })
  { slots := d.jrn.slots ++ cut, otpFail := d.jrn.otpFail }

/-- A device whose supplies have just come up: nothing but OTP is kept. -/
def coldDevice (d : Device) : Device :=
  { jrn := cutCommit d, free := d.free
    pwr := { resetN := d.pwr.resetN, spoke := d.pwr.spoke, inReset := !d.pwr.resetN
             nextCause := if d.pwr.resetN then 0 else 1 } }

/-- POWER_UP: the supplies are in their ranges; the device waits for RESET_N, or starts where it is high (R471, R472). -/
def powerUp (e : Env) (d : Device) : Device :=
  if d.pwr.powered then d
  else
    let d := coldDevice d
    if d.pwr.resetN then journalBad e (release 1 d) else d

/-- SUPPLY_FAULT: VDD_CORE or VDD_SRAM leaves its range (R472). -/
def supplyFault (d : Device) : Device :=
  if !d.pwr.powered then d
  else
    let d := allGatesLow d
    { d with pwr := { d.pwr with powered := false, inReset := true } }

/-- RESET_N_ASSERT: RESET_N held low for at least 1 µs. -/
def resetAssert (d : Device) : Device :=
  let d := if d.pwr.inReset && d.pwr.nextCause = 1 then d else wantReset 1 d
  { d with pwr := { d.pwr with resetN := false } }

/-- RESET_N_RELEASE: the strap is sampled while no role is committed; at power-up the device starts (R473, R476). -/
def resetRelease (roleSel : Bool) (e : Env) (d : Device) : Device :=
  if d.pwr.resetN then d
  else
    let d := { d with pwr := { d.pwr with resetN := true, spoke := if committedRole d = 0 then roleSel else d.pwr.spoke } }
    if d.pwr.powered && d.pwr.inReset && d.pwr.nextCause = 1 then journalBad e (release 1 d) else d

/-- SRAM_CLEAR_DONE: every word is zero with valid code, spares that failed are marked, the media PLL starts its first
lock (R357, R476). -/
def sramCleared (bad : List (Nat × Nat)) (e : Env) (d : Device) : Device :=
  if d.pwr.sramClear || !d.clk.sysLocked then d
  else
    let spares := (bad.filter (fun p => decide (p.1 < 16) && decide (p.2 < 32))).eraseDups
    let count := fun (b : Nat) => (spares.filter (fun p => p.1 = b)).length
    let d := { d with mem := { d.mem with badSpares := spares, unusable := mofList 0 ((List.range 16).map count) } }
    firstLock e { d with pwr := { d.pwr with sramClear := true, setupReady := d.pwr.otpRead } }

/-! ## The warm reset (R490, R491, R500) -/

/-- SRAM counters return to their Reset values; contents, remaps and the patrol's position stay. -/
def keepMem (m : MemState) : MemState :=
  { store := m.store, bad := m.bad, wb := m.wb, pos := m.pos, fails := m.fails, lastFail := m.lastFail
    remap := m.remap, used := m.used, unusable := m.unusable, badSpares := m.badSpares, shadow := m.shadow
    imemBad := m.imemBad }

/-- Scratch of a core: contents and code stay. -/
def keepCore (c : CoreState) : CoreState := { scratch := c.scratch, bad := c.bad, soft := c.soft }

/-- A DRAM channel goes on refreshing; its logs and counts are cleared (R388). -/
def keepChan (c : DramChan) : DramChan :=
  { ready := c.ready, failed := c.failed, det := c.det, owed := c.owed, hot := c.hot, cool := c.cool, scrub := c.scrub
    zq := c.zq, soft := c.soft, wb := c.wb, bad := c.bad }

/-- Device time, the epoch pair, y and yI, FREE_TRIM and the time of the last sample stay; the servo returns to ACQUIRE.
(log 107: DEDUCED, unsafe.) -/
def keepClk (c : ClkState) : ClkState :=
  { time := c.time, timeOn := c.timeOn, timeFrac := c.timeFrac, epoch := c.epoch, epochValid := c.epochValid
    wrapped := c.wrapped, y := c.y, yI := c.yI, lastMeas := c.lastMeas, freeTrim := c.freeTrim
    sysLocked := c.sysLocked
    sysLosses := c.sysLosses }

/-- The ring engine stops; the configuration space is kept but by a function-level reset or RESET_N. -/
def keepRing (config : Bool) (r : RingEngine) : RingEngine :=
  if config then { busMaster := r.busMaster, d3hot := r.d3hot, msixMask := r.msixMask, msixAddr := r.msixAddr
                   msixData := r.msixData } else {}

/-- The device after the logic reset: SRAM, DRAM, time, OTP and the causes of the reset stay.
(log 69: DEDUCED, unsafe; log 106: DEDUCED, unsafe.) -/
def warmDevice (d : Device) : Device :=
  let d := settleDram d
  let p := d.pwr
  let config := !p.nextCause.getLsbD 1 && !p.nextCause.getLsbD 3
  let cores := mmap {} (fun _ c => keepCore c) d.cores
  let slots := mmap {} (fun _ (s : CoreSlot) => ({ unrepaired := s.unrepaired } : CoreSlot)) d.disp.cores
  { jrn := cutCommit d, free := d.free, mem := keepMem d.mem, cores := cores, imem := d.imem
    dram := { bytes := d.dram.bytes, ch := mmap {} (fun _ c => keepChan c) d.dram.ch }
    clk := keepClk d.clk, ring := keepRing config d.ring, disp := { cores := slots }
    xp := { words := d.xp.words, badWords := d.xp.badWords, badEntries := d.xp.badEntries, xps := d.xp.xps }
    pwr := { powered := p.powered, inReset := true, resetN := p.resetN, thermalHold := p.thermalHold
             pllHold := p.pllHold, cycleHold := p.cycleHold, cause := p.cause, nextCause := p.nextCause
             spoke := p.spoke, sramClear := p.sramClear, cycleReq := p.cycleReq, dramFail := p.dramFail }
    outbox := d.outbox }

/-- A wanted reset that need not wait, or waits no longer, for the withdrawal (R242). (log 106: DEDUCED, unsafe.) -/
def resetDue (d : Device) : Bool :=
  d.pwr.nextCause ≠ 0 && (d.pair.delayed.isNone || d.pwr.nextCause &&& 0x32#7 ≠ 0)

/-- WARM_RESET: gates low, granted bursts completed, logic reset; FN and FNX restart from 0 with FN_SYNC clear.
(log 107: DEDUCED, unsafe.) -/
def execWarmReset (s : State) : Host.Outcome State Fault Refusal :=
  if s.dev.alive && resetDue s.dev then
    match runDev {} (fun e d => warmDevice (absorbAll e (allGatesLow d))) s with
    | .next t => .next { t with fc := {} }
    | o => o
  else .next s

/-- RESET_DONE: nothing holds the device in reset: it restarts unconfigured; the first event is RESET_DONE, after SYS_CLK
where the system PLL was lost (R443, R476, R491). -/
def resetDone (e : Env) (d : Device) : Device :=
  let p := d.pwr
  if !p.powered || !p.inReset || !p.resetN || p.thermalHold || p.pllHold || p.cycleHold || p.nextCause = 1 then d
  else
    let cause := p.nextCause
    let lost := cause.getLsbD 4
    let d := release cause d
    let ev := fun (code : Nat) (b : List Byte) =>
      ({ code := code, func := 0, fn := e.fn, timeNs := timeNs d, detail := sub b 0 6 } : Event)
    let clkEv := if lost then [ev 0x300A (leBytes 4 d.clk.sysLosses)] else []
    let d := { d with evt := { d.evt with first := clkEv ++ [ev 0x1016 (leBytes 1 cause.toNat)] }
                      clk := { d.clk with sysLost := lost } }
    if d.pwr.sramClear then firstLock e d else d

/-! ## Commands -/

def execTempWarn (temp : Int) (s : State) : Host.Outcome State Fault Refusal := act (tempWarn temp) s
def execThermalShutdown (temp : Int) (s : State) : Host.Outcome State Fault Refusal := act (thermalShutdown temp) s
def execThermalRecover (temp : Int) (s : State) : Host.Outcome State Fault Refusal :=
  runDev {} (fun _ d => thermalRecover temp d) s
def execSysPllLoss (s : State) : Host.Outcome State Fault Refusal :=
  runDev {} (fun _ d => if d.pwr.powered then pllLoss d else d) s
def execSysPllLock (s : State) : Host.Outcome State Fault Refusal :=
  runDev {} (fun _ d => if d.pwr.powered then pllLock d else d) s
def execPwrCycleReq (s : State) : Host.Outcome State Fault Refusal := act (fun _ d => cycleReq d) s
/-- POWER_UP restarts FN and FNX from 0 with FN_SYNC clear (R19). -/
def execPowerUp (s : State) : Host.Outcome State Fault Refusal :=
  if s.dev.pwr.powered then .next s else runDev {} powerUp { s with fc := {} }
def execSupplyFault (s : State) : Host.Outcome State Fault Refusal := runDev {} (fun _ d => supplyFault d) s
def execResetNAssert (s : State) : Host.Outcome State Fault Refusal := runDev {} (fun _ d => resetAssert d) s
def execResetNRelease (roleSel : Bool) (s : State) : Host.Outcome State Fault Refusal :=
  runDev {} (resetRelease roleSel) s
def execSramClearDone (badSpares : List (Nat × Nat)) (s : State) : Host.Outcome State Fault Refusal :=
  act (sramCleared badSpares) s
def execResetDone (s : State) : Host.Outcome State Fault Refusal := runDev {} resetDone s

end Sys2Proof.Machine
end

