-- ==== Sys2Proof/Machine/Pair.lean ====
section
/-! DEFINITION. The pair of redundant hubs (chapter 07): STATUS and heartbeats, mirrors and their completions, digests and
re-runs, resynchronisation, withdrawal, promotion and demotion. A row that the spec places at a tick stands right before
the TICK row that latches it; what it raises carries that tick's FN. -/
namespace Sys2Proof.Machine

/-- The device is one hub of a pair. -/
def hubOfPair (d : Device) : Bool := paired d && !d.pwr.spoke

/-- The environment of the tick about to begin. (log 8: DESIGN CHOICE, unsafe.) -/
def atTick (e : Env) : Env := { e with fn := e.fn + 1, fnx := e.fnx + 1 }

def modPair (f : PairState → PairState) (d : Device) : Device := { d with pair := f d.pair }

/-! ## STATUS (R227, R228, R230, R249, R250) -/

/-- The STATUS of a tick (R227): its payload. -/
def statusPayload (e : Env) (d : Device) : List Byte :=
  let p := d.pair
  let g := (p.own.find? (fun x => x.frame = e.fn - 2)).getD { frame := e.fn - 2, mask := 0, nc := false, dig := [] }
  leBytes 1 (pairNum p.st) ++ leBytes 1 (ofBits [isActive p, isFit p, isSync p, g.nc]) ++ zeros 2
    ++ leBytes 4 p.epoch.toNat ++ leBytes 4 p.mseq.toNat ++ leBytes 4 (e.fn - 2).toNat ++ leBytes 4 g.mask.toNat ++ zeros 4
    ++ leBytes 8 (cfg d).digest.toNat ++ (List.range 17).flatMap (fun i => leBytes 8 (nth 0 g.dig i).toNat)

/-- A STATUS as it arrives: the peer's image against its own (R222), acknowledged mirrors (R230), a peer that is active
and not fit (R247). (log 91: DEDUCED, unsafe.) -/
def statusRx (m : StatusMsg) (e : Env) (d : Device) : Device :=
  if !hubOfPair d || m.from_ ≠ 3 - (cfg d).pairId then d
  else
    let lost := !d.pair.up && (decide (d.pair.missed ≥ 3) || d.pair.st = .detached)
    let d := modPair (fun p => { p with
      peer := some m, gotStatus := true
      missed := if lost then p.missed else 0
      up := p.up || !lost
      statusSilence := if m.active then 0 else p.statusSilence
      peerUnfit := if m.active then !m.fit else p.peerUnfit
      unacked := if m.active then p.unacked else p.unacked.filter (fun q => later q.1 m.mseq) }) d
    let d := peerHeard m.epoch m.active d
    if isStandby d.pair && m.active && m.img ≠ (cfg d).digest && d.pair.st ≠ .unfit then setPairSt .unfit causeImage e d
    else d

/-- MISSED_HEARTBEAT: the third in a row takes the drawbar as lost (R239, R249). -/
def missedHeartbeat (e : Env) (d : Device) : Device :=
  if !hubOfPair d || d.pair.gotStatus then d
  else
    let p := d.pair
    let n := add32 p.missed 1
    let d := modPair (fun p => { p with missed := n }) d
    if n < 3 || !p.up then d
    else
      let e := atTick e
      let d := modPair (fun p => { p with up := false }) d
      let heard := decide (p.streamSilence < 3)
      if p.st = .inSync || p.st = .check then
        if heard then
          raise 0x200C 0x03 [] e (setPairSt .detached causeDrawbar e
            (modPair (fun p => { p with singleFit := true, rerun := none }) d))
        else d
      else if p.st = .resync then
        raise 0x200C 0x03 [] e (setPairSt .detached causeDrawbar e
          (modPair (fun p => { p with singleFit := false, items := [] }) d))
      else raise 0x200C 0x03 [] e d

/-- DRAWBAR_BACK: STATUS messages return; a detached standby goes to RESYNC (R249, R250).
(log 39: DEDUCED, unsafe; log 94: DEDUCED, unsafe.) -/
def drawbarBack (e : Env) (d : Device) : Device :=
  if !hubOfPair d || d.pair.up || !d.pair.gotStatus then d
  else
    let e := atTick e
    let d := raise 0x1008 0x03 [] e (modPair (fun p => { p with up := true, missed := 0 }) d)
    if d.pair.st = .detached then enterResync causeDrawbar e d else d

/-! ## Mirrors (R230 to R232) -/

/-- A command of the active enters a standby's queue for its decided AF, with its MSEQ where it was mirrored; a refusal here
completes it with its status. (log 90: DEDUCED, unsafe.) -/
def copyTake (m : Option (BitVec 32)) (af ridx : BitVec 32) (marks : Byte) (desc : List Byte) (e : Env) (d : Device) : Device :=
  let c := cmdOf desc
  let held := fun (p : Pend) => p.fromMirror && p.mseq = m && (m.isSome || (p.ridx = ridx && p.af = af && p.opcode = c.1))
  if !later af e.fn || d.cmd.queue.any held then d
  else
    match consider c.1 c.2 ridx false (some af) e d with
    | (_, some p) =>
      enqueue { p with mseq := m, fromMirror := true, late := marks.getLsbD 0, deferred := marks.getLsbD 1 } e d
    | (r, none) =>
      let p : Pend := { opcode := c.1, d := c.2, ridx := ridx, uid := d.cmd.nextUid, af := af, mseq := m, fromMirror := true }
      finishCmd p r.1 r.2 none e { d with cmd := { d.cmd with nextUid := d.cmd.nextUid + 1 } }

/-- The mirror `m` is taken: it is the highest that is held with no gap below. -/
def mirrorTake (m af ridx : BitVec 32) (marks : Byte) (desc : List Byte) (e : Env) (d : Device) : Device :=
  copyTake (some m) af ridx marks desc e (modPair (fun p => { p with mseq := m }) d)

/-- The received mirrors beyond a gap, in MSEQ order: a new one joins them unless it is held. -/
def aheadAdd (x : BitVec 32 × BitVec 32 × BitVec 32 × Byte × List Byte) :
    List (BitVec 32 × BitVec 32 × BitVec 32 × Byte × List Byte) → List (BitVec 32 × BitVec 32 × BitVec 32 × Byte × List Byte)
  | [] => [x]
  | y :: r => if x.1 = y.1 then y :: r else if later y.1 x.1 then x :: y :: r else y :: aheadAdd x r

/-- The received mirrors that follow without a gap are taken, `all` where the gap is not waited for any longer. -/
def takeAhead (all : Bool) (e : Env) (d : Device) : Device :=
  foldN d.pair.ahead.length (fun d _ =>
    match d.pair.ahead with
    | [] => d
    | x :: r =>
      if all || x.1 = d.pair.mseq + 1 then
        mirrorTake x.1 x.2.1 x.2.2.1 x.2.2.2.1 x.2.2.2.2 e (modPair (fun p => { p with ahead := r }) d)
      else d) d

/-- MIRROR_RX: one that the standby holds is discarded; the next in order is taken, one beyond a gap is queued and taken in MSEQ
order. A hub that stands stopped takes a mirror that starts its count. (log 90: DEDUCED, unsafe.) -/
def mirrorRx (m af ridx : BitVec 32) (marks : Byte) (desc : List Byte) (e : Env) (d : Device) : Device :=
  let p := d.pair
  if !hubOfPair d || isActive p || !later m p.mseq then d
  else if m = p.mseq + 1 || p.st = .stopped then takeAhead false e (mirrorTake m af ridx marks desc e d)
  else modPair (fun p => { p with ahead := aheadAdd (m, af, ridx, marks, desc) p.ahead }) d

/-- MIRROR_DONE_RX: the active's status against the standby's own; a repeat is discarded. -/
def mirrorDoneRx (m : BitVec 32) (status : Nat) (e : Env) (d : Device) : Device :=
  if !hubOfPair d || isActive d.pair then d
  else match d.pair.ownDone.find? (fun q => q.1 = m) with
  | some q =>
    let d := modPair (fun p => { p with ownDone := p.ownDone.filter (fun q => q.1 ≠ m) }) d
    if q.2.1 = status then d else mirrorDiff m status q.2.1 e d
  | none =>
    if d.cmd.queue.any (fun p => p.mseq = some m && p.fromMirror) && !d.pair.peerDone.any (fun q => q.1 = m) then
      modPair (fun p => { p with peerDone := p.peerDone ++ [(m, status)] }) d
    else d

/-- A standby that copies nothing yet holds every mirror that it must; else it is in RESYNC with MIRROR_GAP (R231).
(log 90: DEDUCED, unsafe.) -/
def mirrorGap (first : BitVec 32) (e : Env) (d : Device) : Device :=
  enterResync causeMirror e (takeAhead true e <| raise 0x2013 0 (leBytes 4 first.toNat) e d)

/-- MIRROR_DONE_TIMEOUT: 6 frames after the standby's own DONE (R232). -/
def mirrorDoneTimeout (m : BitVec 32) (e : Env) (d : Device) : Device :=
  if !hubOfPair d || !(isSync d.pair || d.pair.st = .resync) then d
  else match d.pair.ownDone.find? (fun q => q.1 = m) with
  | none => d
  | some q => if (e.fn + 1 - q.2.2).toNat < 6 then d else mirrorGap m (atTick e) d

/-- The mirrors that the active's STATUS of the latest tick counts and the standby does not hold (R231), at tick FN. -/
def gapTick (e : Env) (d : Device) : Device :=
  -- what a command queued beyond a gap has to do is due before the gap is found
  let d := when (d.pair.ahead.any (fun x => !later x.2.1 (e.fn + 1))) (takeAhead true e) d
  match d.pair.peer with
  | none => d
  | some m =>
    if !hubOfPair d || !(isSync d.pair || d.pair.st = .resync) || !m.active || m.fn ≠ e.fn - 1
      || !later m.mseq d.pair.mseq then d
    else mirrorGap (d.pair.mseq + 1) e d

/-- The active sends again what the standby's STATUS does not acknowledge (R230), while the drawbar is up. -/
def mirrorResend (e : Env) (d : Device) : Device :=
  if !hubOfPair d || !isActive d.pair || !d.pair.up then d
  else forAll d.pair.unacked (fun q d => sendDraw 2 q.2 e d) d

/-- MIRROR_DONE messages go out again in the two frames after the first (R232). -/
def doneResend (e : Env) (d : Device) : Device :=
  let l := d.pair.doneRepeat
  let d := forAll l (fun q d => sendDraw 9 (leBytes 4 q.1.toNat ++ leBytes 2 q.2.1 ++ zeros 2) e d) d
  modPair (fun p => { p with
    doneRepeat := (l.map (fun q => (q.1, q.2.1, q.2.2 - 1))).filter (fun q => q.2.2 ≠ 0) }) d

/-! ## Local sources (R134) -/

/-- SOURCE_RX: the owner's sealed frame. -/
def sourceRx (source : Nat) (k : BitVec 32) (x : List F36) (d : Device) : Device :=
  if !hubOfPair d || !localSrcs.contains source || ownsSrc d source then d
  else { d with inp := { d.inp with
    ownerFrames := d.inp.ownerFrames.filter (fun f => !(f.1 = source && f.2.1 = k)) ++ [(source, k, x)] } }

/-- During frame k + 1 the owner sends its sealed frame k of every routed local source that it owns (R134). -/
def sendSources (k : BitVec 32) (e : Env) (d : Device) : Device :=
  if !hubOfPair d || !d.pwr.rendering then d
  else forAll (localSrcs.filter (fun s => srcSent d s && ownsSrc d s)) (fun s d =>
    let x := mget (silence (nSmp d)) d.inp.localPrev s
    sendDraw 3 (leBytes 2 s ++ zeros 2 ++ leBytes 4 k.toNat ++ x.flatMap (fun v => leBytes 5 v.toNat)) e d) d

/-! ## Digests (R233, R234) -/

/-- Bytes of block-8 values: 5 each. (log 93: DEDUCED, unsafe.) -/
def blk8Bytes (l : List F36) : List Byte := l.flatMap (fun v => leBytes 5 v.toNat)

/-- Digest of the outputs of group `g`, whose values `val` gives; 0 where the group has none.
(log 93: DEDUCED, unsafe.) -/
def groupDigest (nout : Nat) (val : Nat → List F36) (g : Nat) : BitVec 64 :=
  if 32 * g ≥ nout then 0
  else crc64 (((List.range 32).map (32 * g + ·)).flatMap (fun n => if n < nout then blk8Bytes (val n) else []))

/-- What an output rendered in the frame: its block-8 frame, or what it emitted in an overrun. -/
def renderedVal (o : OutState) : List F36 := o.blk8.getD o.emit8

/-- Digest 16: object audio and canonical records of an input frame `k`. -/
def objDigest (k : BitVec 32) (d : Device) : BitVec 64 :=
  let objs := List.range (nObj d)
  let n := nSmp d
  crc64 (objs.flatMap (fun o => (List.range n).flatMap (fun i => leBytes 3 (uext 24 (nth 0 (objAt d o).reemit i))))
    ++ objs.flatMap (fun o => recBytes (k + 2) o (objAt d o).canon))

/-- Groups with a configured output, and digest 16. -/
def digestMask (nout : Nat) : BitVec 17 :=
  BitVec.ofNat 17 (pow2 16 + (pow2 (min 16 ((nout + 31) / 32)) - 1))

/-- The digests of output frame `k` as it is launched; `obj` is digest 16, taken before the tick's seals. Four frames are
kept. (log 93: DEDUCED, unsafe.) -/
def takeDigests (k : BitVec 32) (obj : BitVec 64) (d : Device) : Device :=
  if !hubOfPair d || !d.pwr.rendering || d.chn.launched ≠ some k then d
  else
    let g : Digests :=
      { frame := k, mask := digestMask (nOut d), nc := d.inp.nc.contains k
        dig := (List.range 16).map (groupDigest (nOut d) (fun n => renderedVal (outAt d n))) ++ [obj] }
    let d := { d with inp := { d.inp with nc := d.inp.nc.filter (fun x => later x k) } }
    modPair (fun p => { p with own := (p.own ++ [g]).drop (p.own.length - 3) }) d

/-- Digests that both STATUS messages carry and that differ. -/
def diffMask (a : Digests) (m : StatusMsg) : BitVec 17 :=
  BitVec.ofNat 17 (ofBits ((List.range 17).map (fun i =>
    a.mask.getLsbD i && m.dmask.getLsbD i && decide (nth 0 a.dig i ≠ nth 0 m.digests i))))

/-- A pair state in which digests are compared. -/
def comparing (st : Nat) : Bool := st = 1 || st = 2 || st = 3 || st = 4

/-- The verdict DIVERGED (R236). -/
def diverged (dfn : BitVec 32) (e : Env) (d : Device) : Device :=
  let d := raise 0x200E 0 (leBytes 1 3 ++ leBytes 3 (dfn.toNat % 16777216)) e d
  let d := modPair (fun p => { p with rerun := none }) d
  if isActive d.pair then d else enterResync causeDiverged e d

/-- A mismatch in COMPARE (R239): once more from CONFIG, the third in a row leaves the standby UNFIT. -/
def compareFails (e : Env) (d : Device) : Device :=
  let n := d.pair.failsInRow + 1
  let d := modPair (fun p => { p with failsInRow := n }) d
  if n ≥ 3 then setPairSt .unfit causeResync e (modPair (fun p => { p with run := 0 }) d) else enterResync 0 e d

/-- The FRONT and BACK tasks of every output of the differing groups wait for cores (R235); an output that overran in the frame has
nothing to run again. What an earlier re-run left is given up. -/
def startReruns (x : Rerun) (d : Device) : Device :=
  let ran := match d.pair.retained.find? (fun r => r.frame = x.dfn) with
    | some r => (List.range (nOut d)).filter (fun n => x.groups.getLsbD (n / 32) && (mget ({} : OutState) r.outs n).blk8.isSome)
    | none => []
  let jobs := ran.flatMap (fun n => [Job.reFront n, Job.reBack n])
  let works := jobs.zipIdx.map (fun p =>
    { task := 0xFFFF, frame := x.dfn, job := some p.1, bg := true, rel := d.disp.releases + p.2 : Work })
  { d with disp := { d.disp with reruns := works, releases := d.disp.releases + works.length } }

/-- A task of the re-run waits or is under way. -/
def rerunBusy (x : Rerun) (d : Device) : Bool :=
  let mine : Work → Bool := fun w => match w.job with
    | some (.reFront _) => w.frame = x.dfn
    | some (.reBack _) => w.frame = x.dfn
    | _ => false
  d.disp.reruns.any mine || (allWork d).any mine

/-- At tick k + 3 the digests of output frame k are compared (R234). -/
def compareTick (e : Env) (d : Device) : Device :=
  let p := d.pair
  let inCompare := p.st = .resync && p.stage = 4
  if !hubOfPair d || !d.pwr.rendering then d
  else
    let skip := modPair (fun p => { p with skipped := inc32 p.skipped }) d
    match p.peer, p.own.find? (fun x => x.frame = e.fn - 3) with
    | _, none => d
    | some m, some a =>
      if m.fn ≠ e.fn - 1 || m.dfn ≠ e.fn - 3 || p.rerun.isSome
        || !(comparing (pairNum p.st) || inCompare) || !comparing m.pstate then skip
      else
        let x := diffMask a m
        if x = 0 then modPair (fun p => { p with matched := inc32 p.matched, run := p.run + 1 }) d
        else
          let d := modPair (fun p => { p with mismatches := inc32 p.mismatches, run := 0 }) d
          if inCompare then compareFails e d
          else if a.nc || m.nc || x.getLsbD 16 then diverged a.frame e d
          else
            let d := raise 0x200D 0 (leBytes 3 (a.frame.toNat % 16777216) ++ leBytes 3 x.toNat) e d
            let r : Rerun := { dfn := a.frame, groups := x.setWidth 16, started := e.fn }
            let d := startReruns r (modPair (fun p => { p with rerun := some r }) d)
            if isActive d.pair then d else setPairSt .check 0 e d
    | none, some _ => skip

/-! ## Re-runs (R235, R236) -/

/-- Operands and starting states of frame `k` are kept as its tasks are released; four frames stay. -/
def retainStart (k : BitVec 32) (d : Device) : Device :=
  if !hubOfPair d || !d.pwr.rendering then d
  else
    let bus := mofList [] ((List.range (nOut d)).map (fun n => routeFrame d (outAt d n).route))
    let place := match d.pair.retained.getLast? with | some r => (r.place + 1) % 4 | none => 0
    let r : Retained := { frame := k, outs := d.chn.outs, bus := bus, homes := d.disp.homes, place := place }
    modPair (fun p => { p with retained := (p.retained ++ [r]).drop (p.retained.length - 4) }) d

/-- Words that the retention area holds of an output and frame, and of a frame (R235). -/
def retainLen (d : Device) (n : Nat) : Nat :=
  let s := outStat (cfg d) n
  96 + 6 * (s.biqMax + s.xoMax) + 2 * ((nSmp d + 1) / 2)
def retainFrame (d : Device) : Nat := ((List.range (nOut d)).map (retainLen d)).sum

/-- Where the XSUM operand of an output stands for a retained frame; its CVE operand follows. (log 135: DESIGN CHOICE, safe.) -/
def retainAt (d : Device) (place n : Nat) : Nat :=
  builtinPlace d Config.retainPlace (4 * retainFrame d) + place * retainFrame d + ((List.range n).map (retainLen d)).sum

/-- The operands of frame `k` are written into the retention area. -/
def retainStore (r : Retained) (d : Device) : Device :=
  let put := fun (a : Nat) (l : List F36) (d : Device) =>
    let w := packHalves l
    cleanStore a w.length { d with mem := { d.mem with
      store := msets 0 d.mem.store (w.zipIdx.map (fun p => (a + p.2, p.1))) } }
  forAll (List.range (nOut d)) (fun n d =>
    let o := outAt d n
    let a := retainAt d r.place n
    put (a + (nSmp d + 1) / 2) (o.convOut.getD []) (put a (o.xsum.getD []) d)) d

/-- An operand as the retention area holds it. -/
def retained36 (d : Device) (a : Nat) : List F36 :=
  (List.range (nSmp d)).map (fun i => halfOf (mget 0 d.mem.store (a + i / 2)) (i % 2))

/-- What the other engines delivered in the frame joins its retained operands as it ends. -/
def retainEnd (k : BitVec 32) (d : Device) : Device :=
  let d := match d.pair.retained.find? (fun r => r.frame = k) with | some r => retainStore r d | none => d
  let add := fun (r : Retained) =>
    if r.frame ≠ k then r
    else { r with closed := true, outs := mofList {} ((List.range (nOut d)).map (fun n =>
      let o := outAt d n
      { mget {} r.outs n with xsum := o.xsum, block3 := o.block3, convOut := o.convOut, blk8 := o.blk8
                              emit8 := o.emit8 })) }
  modPair (fun p => { p with retained := p.retained.map add }) d

/-- FRONT and BACK of output `n` again, from retained operands and state: the block-8 frame. An output that overran in the
frame has nothing to run again. -/
def rerunOut (r : Retained) (n : Nat) (d : Device) : List F36 :=
  let o := mget {} r.outs n
  if o.blk8.isNone then o.emit8
  else
    let a := retainAt d r.place n
    let o := { o with xsum := o.xsum.map (fun _ => retained36 d a)
                      convOut := o.convOut.map (fun _ => retained36 d (a + (nSmp d + 1) / 2)) }
    let d0 := { d with chn := { d.chn with outs := mset {} r.outs n o } }
    let d1 := chBack r.frame n (chFrontBus (mget (silence (nSmp d)) r.bus n) r.frame n d0)
    renderedVal (outAt d1 n)

/-- Self-consistent groups of a re-run: the recomputed digest is the hub's own (R235). -/
def consistentGroups (x : Rerun) (d : Device) : BitVec 16 :=
  match d.pair.retained.find? (fun r => r.frame = x.dfn), d.pair.own.find? (fun g => g.frame = x.dfn) with
  | some r, some g => BitVec.ofNat 16 (ofBits ((List.range 16).map (fun i =>
      x.groups.getLsbD i && decide (groupDigest (nOut d) (fun n => rerunOut r n d) i = nth 0 g.dig i))))
  | _, _ => 0

/-- A re-run ends with its result, which goes to the peer (R235). -/
def rerunEnd (x : Rerun) (mask : BitVec 16) (e : Env) (d : Device) : Device :=
  let d := modPair (fun p => { p with rerun := some { x with done := true, consistent := mask } }) d
  sendDraw 4 (leBytes 4 x.dfn.toNat ++ leBytes 2 x.groups.toNat ++ leBytes 2 mask.toNat) e d

/-- RERUN_DONE: the re-run tasks are complete before tick k + 4. -/
def rerunDone (e : Env) (d : Device) : Device :=
  match d.pair.rerun with
  | some x => if x.done || e.fn ≠ x.started || rerunBusy x d then d else rerunEnd x (consistentGroups x d) e d
  | none => d

/-- RERUN_DEADLINE: tick k + 4 finds the re-run unfinished. -/
def rerunDeadline (e : Env) (d : Device) : Device :=
  match d.pair.rerun with
  | some x => if x.done then d else rerunEnd x 0 (atTick e) { d with disp := { d.disp with reruns := [] } }
  | none => d

/-- RERUN_RX: the peer's results for the same frame. -/
def rerunRx (dfn : BitVec 32) (rerun consistent : BitVec 16) (d : Device) : Device :=
  modPair (fun p => { p with rerun := p.rerun.map (fun x =>
    if x.dfn = dfn then { x with peer := some (rerun, consistent) } else x) }) d

/-- RERUN_VERDICT at tick k + 5 (R236). (log 89: DEDUCED, unsafe.) -/
def rerunVerdict (e : Env) (d : Device) : Device :=
  match d.pair.rerun with
  | none => d
  | some x =>
    if !x.done || (e.fn + 1 - x.started).toNat < 2 then d
    else
      let e := atTick e
      let self := x.consistent &&& x.groups = x.groups
      let peerOk := match x.peer with | some q => decide (q.1 &&& ~~~q.2 = 0) | none => true
      if self && peerOk then diverged x.dfn e d
      else
        let d := raise 0x200E 0 (leBytes 1 (if self then 2 else 1) ++ leBytes 3 (x.dfn.toNat % 16777216)) e d
        let d := modPair (fun p => { p with rerun := none }) d
        if !self then (if isActive d.pair then modPair (fun p => { p with foundNext := [causeRerun] }) d
          else enterResync causeRerun e d)
        else if d.pair.st = .check then setPairSt .inSync 0 e d
        else d

/-! ## Resynchronisation (R237 to R239) -/

/-- H1, H2: frames that stages INGRESS and FRONT wait. -/
def waitH1 (d : Device) : Nat := cdiv (winW (nObj d) + if (cfg d).objBulkEn then 262160 else 0) (nSmp d)
def waitH2 (d : Device) : Nat :=
  let m := (cfg d).outs.foldl (fun a o => max a o.convMax) 0
  cdiv ((if m = 0 then 0 else m + 16384) + if (cfg d).outBulkEn then 262160 else 0) (nSmp d)

def stageWaits (d : Device) (stage : Nat) : Nat := if stage = 1 then waitH1 d else if stage = 2 then waitH2 d else 0

/-- A chain's parameters, without what its own input and its tasks keep. -/
def chainParams (x c : Dec) : Dec :=
  { c with bsRate := x.bsRate, cicOrder := x.cicOrder, cicDec := x.cicDec, hbCount := x.hbCount, firGd := x.firGd
           fir := x.fir, hpfEn := x.hpfEn, started := x.started, gainU := x.gainU, ofsU := x.ofsU
           hi := { x.hi with asserted := c.hi.asserted, below := c.hi.below }
           lo := { x.lo with asserted := c.lo.asserted, below := c.lo.below } }

/-- The key of a copied item: sixteen kinds, each by index. -/
def itemKey : ResyncItem → Nat
  | .digests _ => 0
  | .spk _ => 4096
  | .tri _ => 4097
  | .groups _ => 4098
  | .common _ _ _ _ _ _ _ _ _ _ _ _ => 4099
  | .pending _ => 4100
  | .global _ _ _ _ => 4101
  | .dirtab c _ => 2 * 4096 + c
  | .direct o _ => 3 * 4096 + o
  | .outCfg n _ _ => 4 * 4096 + n
  | .taps n _ => 5 * 4096 + n
  | .objParams o _ _ => 6 * 4096 + o
  | .chain c _ => 7 * 4096 + c
  | .obj o _ _ => 8 * 4096 + o
  | .front n _ => 9 * 4096 + n
  | .back n _ _ _ _ _ _ _ => 10 * 4096 + n

/-- The items of a stage by key, in the order in which they are copied: CONFIG begins with the digests of its others. -/
def stageKeys (stage : Nat) (d : Device) : List Nat :=
  let outs := List.range (nOut d)
  let objs := List.range (nObj d)
  match stage with
  | 0 =>
    [4096, 4097, 4098, 4099] ++ (List.range 64).map (2 * 4096 + ·) ++ (objs.filter (mayDirect (cfg d))).map (3 * 4096 + ·)
      ++ outs.map (4 * 4096 + ·) ++ (convOuts (cfg d)).map (5 * 4096 + ·) ++ objs.map (6 * 4096 + ·)
      ++ (List.range 40).map (7 * 4096 + ·) ++ [4100]
  | 1 => 4101 :: objs.map (8 * 4096 + ·)
  | 2 => outs.map (9 * 4096 + ·)
  | 3 => outs.map (10 * 4096 + ·)
  | _ => []

/-- The commands that wait and were mirrored, or would have been but for the loss of the drawbar (R237, R249). -/
def pendingCmds (d : Device) : List (Option (BitVec 32) × BitVec 32 × BitVec 32 × List Byte) :=
  (d.cmd.queue.filter (fun p => !p.applied && (p.mseq.isSome || p.fromMirror || pairCol p.opcode p.d.func.toNat = .m))).map
    (fun p => (p.mseq, p.af, p.ridx, descBytes p.opcode p.d))

/-- An item but for the digests, as the device holds it, with its size in bytes (R237). (log 26: DESIGN CHOICE, safe.) -/
def itemAt (key : Nat) (d : Device) : Nat × ResyncItem :=
  let i := key % 4096
  let s := outStat (cfg d) i
  let o := outAt d i
  match key / 4096 with
  | 1 =>
    match i with
    | 0 => (512 * 64, .spk d.geo.spk)
    | 1 => (2048 * 96, .tri d.geo.tri)
    | 2 => (32 * 64, .groups d.chn.groups)
    | 3 => (65536, .common d.xp.app.gainSlew d.xp.app.scarfXp d.geo.wfsLo d.geo.wfsHi d.inp.wfsApp d.inp.ownerB d.chn.sinks
        d.inp.rx d.eth.tx (mmap {} (fun _ p => p.app) d.inp.dp) (mmap false (fun _ (a : AinMedia) => a.slipApp) d.inp.ain)
        (cfg d).swapMax)
    | 4 => (80 * (pendingCmds d).length, .pending (pendingCmds d))
    | _ => (131072, .global d.geo.temp d.inp.chans (mmap [] (fun _ a => a.chans) d.ring.ain)
        (mmap none (fun _ (o : OutState) => o.route.fade) d.chn.outs))
  | 2 => (16384, .dirtab i (d.geo.dirtab.filter (fun q => q.1 % 64 = i)))
  | 3 => (16 * nOut d, .direct i (d.geo.direct.filter (fun q => q.1 / 512 = i)))
  | 4 => (256 + 40 * (s.biqMax + s.xoMax), .outCfg i { o.app with taps := [] } o.route.app)
  | 5 => (8 * s.convMax, .taps i o.app.taps)
  | 6 => (64, .objParams i (objAt d i).params (objAt d i).route.app)
  | 7 => (2048, .chain i (chainParams (decAt d i) {}))
  | 8 => (256 + 32 * nOut d, .obj i (objAt d i) (d.xp.xps.filter (fun q => q.1 / 512 = i)))
  | 9 => (64 + 16 * (s.biqMax + s.xoMax), .front i o.dsp)
  | _ => (64, .back i o.dsp o.clip o.peak o.sumSq o.minGain o.samples o.bulkLine)

/-- The bytes of an item. -/
def itemBytes (x : Nat × ResyncItem) : List Byte := sub (Config.resyncBytes x.2) 0 x.1

/-- The digests of the items of stage CONFIG (R237, R233). -/
def configDigests (d : Device) : List (Nat × BitVec 64) :=
  (stageKeys 0 d).map (fun k => (k, crc64 (itemBytes (itemAt k d))))

/-- An item with its size, the digests too. -/
def copyItem (key : Nat) (d : Device) : Nat × ResyncItem :=
  if key = 0 then (16 * (stageKeys 0 d).length, .digests (configDigests d)) else itemAt key d

/-- Tables and coefficient banks may span frames (R237). -/
def maySpan (key : Nat) : Bool := key = 4096 || key = 4097 || key / 4096 = 2 || key / 4096 = 3 || key / 4096 = 5

/-- The RESYNC_DATA messages that carry a piece of an item, with its stage and frame: an Ethernet frame of at most 9,018 bytes each
(R224, R226). -/
def copyMsgs (stage : Nat) (fn : BitVec 32) (l : List Byte) : List (List Byte) :=
  let head := leBytes 1 stage ++ leBytes 4 fn.toNat
  if l.isEmpty then [head] else (chunks 8979 l).map (head ++ ·)

/-- What a frame takes of the items left, within `room` bytes, the first from byte `off` on (R237). -/
def takeCopies (stage : Nat) (e : Env) (d : Device) : Nat → Nat → List Nat → List CopyItem
  | _, _, [] => []
  | room, off, k :: r =>
    let x := copyItem k d
    if maySpan k then
      let n := min room (x.1 - off)
      if n = 0 then []
      else
        let c : CopyItem :=
          { key := k, len := n, last := off + n = x.1, msgs := copyMsgs stage e.fn (((itemBytes x).drop off).take n) }
        c :: (if c.last then takeCopies stage e d (room - n) 0 r else [])
    else if x.1 ≤ room then
      { key := k, len := x.1, last := true, msgs := copyMsgs stage e.fn (itemBytes x) : CopyItem }
        :: takeCopies stage e d (room - x.1) 0 r
    else []

/-- Copies of the frame before that found no background time are given up: their items are taken anew. -/
def dropCopies (d : Device) : Device :=
  let keep : Work → Bool := fun w => match w.job with | some (.copy _) => false | _ => true
  { d with pair := { d.pair with copying := [] }, disp := { d.disp with background := d.disp.background.filter keep } }

/-- The active takes what a frame can send of the copy that its standby asked for, as the state stands after action 3 of tick FN
(R237, R238): background work, each item sent when its copy is complete. (log 26: DESIGN CHOICE, safe; log 92: DEDUCED, unsafe.) -/
def serveTick (e : Env) (d : Device) : Device :=
  match d.pair.serving with
  | none => d
  | some stage =>
    let d := dropCopies d
    if !hubOfPair d || !isActive d.pair || !d.pair.up then d
    else if d.pair.left.isEmpty then modPair (fun p => { p with serving := none }) d
    else
      let l := takeCopies stage e d 131072 d.pair.leftOff d.pair.left
      forAll l (fun c d => enlistJob (.copy c.key) e d) (modPair (fun p => { p with copying := l }) d)

/-- RESYNC_REQ_RX: the active serves a stage from its first item; in CONFIG the digests first, then the items that the standby
names. -/
def resyncReqRx (stage : Nat) (items : List Nat) (d : Device) : Device :=
  if !hubOfPair d || !isActive d.pair || stage > 3 then d
  else
    let keys := if stage ≠ 0 then stageKeys stage d
      else if items.isEmpty then [0] else items.filter ((stageKeys 0 d).contains ·)
    modPair (fun p => { p with serving := some stage, left := keys, leftOff := 0 }) (dropCopies d)

/-- RESYNC_DATA_RX: an item of the stage waits for its load at the next tick (R238). (log 92: DEDUCED, unsafe.) -/
def resyncDataRx (stage : Nat) (taken : BitVec 32) (i : ResyncItem) (e : Env) (d : Device) : Device :=
  if !hubOfPair d || d.pair.st ≠ .resync || stage ≠ d.pair.stage || !(stage = 0 || taken = e.fn) then d
  else modPair (fun p => { p with items := p.items ++ [(stage, taken, i)] }) d

/-- RESYNC_REQ: the standby asks for a stage, or for items of stage CONFIG (R226). -/
def sendReq (stage : Nat) (items : List Nat) (e : Env) (d : Device) : Device :=
  sendDraw 5 (leBytes 1 stage ++ items.flatMap (leBytes 2)) e d

/-- The standby compares the digests of stage CONFIG with its own and asks for the items that differ (R237). -/
def digestsIn (l : List (Nat × BitVec 64)) (e : Env) (d : Device) : Device :=
  let own := configDigests d
  let keys := (l.filter (fun p => !own.contains p)).map (·.1)
  when (!keys.isEmpty) (sendReq 0 keys e) (modPair (fun p => { p with wanted := some keys }) d)

/-- Load one item. -/
def loadItem (i : ResyncItem) (e : Env) (d : Device) : Device :=
  match i with
  | .digests l => digestsIn l e d
  | .spk t => { d with geo := { d.geo with spk := t } }
  | .tri t => { d with geo := { d.geo with tri := t } }
  | .dirtab c t => { d with geo := { d.geo with dirtab := msets 0 (mdrop d.geo.dirtab (fun k => decide (k % 64 = c))) t } }
  | .direct o t => { d with geo := { d.geo with direct := msets (0, 0) (mdrop d.geo.direct (fun k => decide (k / 512 = o))) t } }
  | .groups g => { d with chn := { d.chn with groups := g } }
  | .outCfg n c r => modOut n (fun o => { o with app := { c with taps := o.app.taps }, route := { o.route with app := r } }) d
  | .taps n t => modOut n (fun o => { o with app := { o.app with taps := t } }) d
  | .objParams o p r => modObj o (fun x => { x with params := p, route := { x.route with app := r } }) d
  | .chain c x => modDec c (chainParams x) d
  | .common slew scarf lo hi wfs own sinks rx tx dp ainMode swapMax =>
    { d with
      img := { d.img with img := d.img.img.map (fun i => { i with swapMax := swapMax }) }
      xp := { d.xp with app := { gainSlew := slew, scarfXp := scarf } }
      geo := { d.geo with wfsLo := lo, wfsHi := hi }
      chn := { d.chn with sinks := sinks }
      eth := { d.eth with tx := tx }
      inp := { d.inp with
        wfsApp := wfs, ownerB := own, rx := rx
        ain := (List.range 8).foldl (fun (m : SMap AinMedia) r =>
          mmod {} m r (fun a => { a with slipApp := mget false ainMode r })) d.inp.ain
        dp := (List.range 16).foldl (fun (m : SMap DirectPath) n =>
          mmod {} m n (fun p => { p with app := mget {} dp n })) d.inp.dp } }
  | .pending cmds =>
    let d := forAll cmds (fun c d => copyTake c.1 c.2.1 c.2.2.1 0 c.2.2.2 e d) d
    modPair (fun p => { p with mseq := (cmds.filterMap (·.1)).foldl laterOf p.mseq }) d
  | .global t chans rings fades =>
    { d with
      geo := { d.geo with temp := t }
      inp := { d.inp with chans := chans }
      ring := { d.ring with ain := (List.range 16).foldl (fun (m : SMap AinRing) h =>
        mmod {} m h (fun a => { a with chans := mget [] rings h })) d.ring.ain }
      chn := { d.chn with outs := (List.range (nOut d)).foldl (fun (m : SMap OutState) n =>
        mmod {} m n (fun o => { o with route := { o.route with fade := mget none fades n } })) d.chn.outs } }
  | .obj o st xps =>
    let d := modObj o (fun x => { st with bulkLine := x.bulkLine, reemit := x.reemit, written := x.written }) d
    { d with xp := { d.xp with xps := msets {} (mdrop d.xp.xps (fun k => k / 512 = o)) xps } }
  | .front n x => modOut n (fun o => { o with dsp := { o.dsp with
      gain := x.gain, ramp := x.ramp, biqSt := x.biqSt, xoSt := x.xoSt, busHist := x.busHist } }) d
  | .back n x clip peak sum lo k _ => modOut n (fun o => { o with
      dsp := { o.dsp with lim := x.lim, dchp := x.dchp, bulkDepth := x.bulkDepth }
      clip := clip, peak := peak, sumSq := sum, minGain := lo, samples := k }) d

/-- At tick f + 1 the standby loads what the active took in frame f, before it applies commands (R238). -/
def loadTick (e : Env) (d : Device) : Device :=
  if d.pair.st ≠ .resync then d
  else
    let l := d.pair.items
    let d := modPair (fun p => { p with
      items := [], stageWait := if l.isEmpty then p.stageWait + 1 else 0
      wanted := p.wanted.map (fun w => w.filter (fun k => !(l.map (fun i => itemKey i.2.2)).contains k)) }) d
    forAll l (fun i d => loadItem i.2.2 e d) d

/-- RESYNC_STAGE_DONE: the stage's items are loaded and its wait is over; the next stage is asked for (R237). -/
def resyncStageDone (e : Env) (d : Device) : Device :=
  let p := d.pair
  if !hubOfPair d || p.st ≠ .resync || p.stage ≥ 4 || p.wanted ≠ some [] || !p.items.isEmpty || p.stageWait < stageWaits d p.stage then d
  else
    let n := p.stage + 1
    let d := modPair (fun p => { p with stage := n, stageWait := 0, wanted := some (stageKeys n d), run := 0 }) d
    when (n < 4) (sendReq n [] e) d

/-- RESYNC_DONE: 60 matched frames in a row (R239). -/
def resyncDone (e : Env) (d : Device) : Device :=
  let p := d.pair
  if !hubOfPair d || p.st ≠ .resync || p.stage ≠ 4 || p.run < 60 then d
  else
    let d := setPairSt .inSync 0 e (modPair (fun p => { p with failsInRow := 0 }) d)
    raise 0x1005 0 (leBytes 4 d.pair.epoch.toNat) e d

/-! ## Withdrawal, promotion, demotion (R240, R241, R247, R248, R250) -/

/-- WITHDRAW_RX (R247). -/
def withdrawRx (d : Device) : Device :=
  if !hubOfPair d || isActive d.pair then d else modPair (fun p => { p with peerUnfit := true }) d

/-- HANDOVER_RX (R248). -/
def handoverRx (h : BitVec 32) (d : Device) : Device :=
  if !hubOfPair d || isActive d.pair then d else modPair (fun p => { p with handover := some h }) d

/-- WITHDRAWN: a cause found in the frame that ends acts from the tick: an active hub withdraws, a single one clears FIT, a
standby is UNFIT on every cause but RERUN and HOST. -/
def withdrawn (e : Env) (d : Device) : Device :=
  let e := atTick e
  let l := d.pair.found
  let d := modPair (fun p => { p with found := [] }) d
  match d.pair.st with
  | .single => if l.isEmpty then d else modPair (fun p => { p with singleFit := false, cause := l.headD 0 }) d
  | .active =>
    if l.isEmpty then d
    else
      let c := l.headD 0
      let d := setPairSt .withdrawn c e d
      raise 0x3007 0 (leBytes 1 c) e (sendDraw 7 (leBytes 1 c) e d)
  | .withdrawn => d
  | .stopped => d
  | .unfit => d
  | _ =>
    match l.filter (fun c => c ≠ causeRerun && c ≠ causeHost) with
    | [] => d
    | c :: _ => setPairSt .unfit c e (modPair (fun p => { p with items := [], rerun := none }) d)

/-- The active was heard in none of the last three frames (R247). -/
def activeSilent (p : PairState) : Bool := decide (p.streamSilence ≥ 3) && decide (p.statusSilence ≥ 3)

/-- PROMOTED (R247). -/
def promoted (e : Env) (d : Device) : Device :=
  let p := d.pair
  if hubOfPair d && (isSync p || p.st = .detached) && (activeSilent p || (p.peerUnfit && isFit p)) then
    promote (atTick e) d
  else d

/-- The old active stands aside once its peer is active with the higher rank: a WITHDRAWN hub is UNFIT (R240). -/
def standAside (e : Env) (d : Device) : Device :=
  if hubOfPair d && d.pair.st = .withdrawn && d.pair.outranked.isSome then
    setPairSt .unfit d.pair.cause e (modPair (fun p => { p with outranked := none, unacked := [] }) d)
  else d

/-- DEMOTED (R250): the hub drops what would apply later than the tick, and copies from the higher one. -/
def demoted (e : Env) (d : Device) : Device :=
  match d.pair.outranked with
  | none => d
  | some ep =>
    if d.pair.st = .withdrawn then d
    else if !hubOfPair d || !isActive d.pair then modPair (fun p => { p with outranked := none }) d
    else
      let e := atTick e
      let d := modPair (fun p => { p with outranked := none, unacked := [], doneRepeat := [], serving := none
                                          singleFit := false }) d
      let d := raise 0x2015 0 (leBytes 4 ep.toNat) e (dropLater 4 e d)
      if d.pair.up then enterResync 0 e d else setPairSt .detached causeDrawbar e d

/-! ## Commands -/

def execStatusRx (m : StatusMsg) (s : State) : Host.Outcome State Fault Refusal := act (statusRx m) s
def execMissedHeartbeat (s : State) : Host.Outcome State Fault Refusal := act missedHeartbeat s
def execDrawbarBack (s : State) : Host.Outcome State Fault Refusal := act drawbarBack s
def execMirrorRx (mseq af ridx : BitVec 32) (marks : Byte) (desc : List Byte) (h : HostView) (s : State) :
    Host.Outcome State Fault Refusal := actH h (mirrorRx mseq af ridx marks desc) s
def execMirrorDoneRx (mseq : BitVec 32) (status : BitVec 16) (s : State) : Host.Outcome State Fault Refusal :=
  act (mirrorDoneRx mseq status.toNat) s
/-- Log 6: DESIGN CHOICE, safe. -/
def execMirrorDoneTimeout (mseq : BitVec 32) (s : State) : Host.Outcome State Fault Refusal := act (mirrorDoneTimeout mseq) s
def execSourceRx (source : Nat) (frame : BitVec 32) (samples : List F36) (s : State) : Host.Outcome State Fault Refusal :=
  act (fun _ d => sourceRx source frame samples d) s
def execRerunDone (s : State) : Host.Outcome State Fault Refusal := act rerunDone s
def execRerunDeadline (s : State) : Host.Outcome State Fault Refusal := act rerunDeadline s
def execRerunRx (dfn : BitVec 32) (rerun consistent : BitVec 16) (s : State) : Host.Outcome State Fault Refusal :=
  act (fun _ d => rerunRx dfn rerun consistent d) s
def execRerunVerdict (s : State) : Host.Outcome State Fault Refusal := act rerunVerdict s
def execResyncReqRx (req : ResyncReq) (s : State) : Host.Outcome State Fault Refusal :=
  act (fun _ d => resyncReqRx req.stage req.items d) s
def execResyncDataRx (stage : Nat) (taken : BitVec 32) (item : ResyncItem) (s : State) :
    Host.Outcome State Fault Refusal := act (resyncDataRx stage taken item) s
def execResyncStageDone (s : State) : Host.Outcome State Fault Refusal := act resyncStageDone s
def execResyncDone (s : State) : Host.Outcome State Fault Refusal := act resyncDone s
def execWithdrawRx (_cause : Nat) (s : State) : Host.Outcome State Fault Refusal := act (fun _ d => withdrawRx d) s
def execHandoverRx (frame : BitVec 32) (s : State) : Host.Outcome State Fault Refusal :=
  act (fun _ d => handoverRx frame d) s
def execWithdrawn (s : State) : Host.Outcome State Fault Refusal := act withdrawn s
def execPromoted (s : State) : Host.Outcome State Fault Refusal := act promoted s
def execDemoted (s : State) : Host.Outcome State Fault Refusal := act demoted s

end Sys2Proof.Machine
end

