-- ==== Sys2Proof/Machine/Launch.lean ====
section
/-! DEFINITION. Action 6 of a tick (R21, R25): the launch of an output frame to every sink, the overrun and silence of an
output (R40 to R43), the fades of RENDER_STOP and of the FN step (R284, R19). -/
namespace Sys2Proof.Machine

/-- The fade that the launched frame takes as a whole: none, out by w_out (RENDER_STOP at its AF, the frame before an FN
step), in by w_in (the first frame after it). -/
inductive LaunchFade where
  | none | out | in_
deriving DecidableEq, Repr

/-- The fade of the frame `k` that is launched. (log 34: DEDUCED, unsafe.) -/
def launchFade (k : BitVec 32) (e : Env) (d : Device) : LaunchFade :=
  if d.pwr.stopAt = some k || fnStepDue e.fnSync d then .out
  else if d.pwr.stepFade = 2 then .in_
  else .none

/-- What an output launches: its block-8 frame, PCM frame and state. -/
structure Launched where
  o : OutState
  v : List F36
  pcm : List Int
deriving DecidableEq, Repr

/-- The PCM of a frame that is not emitted as it was rendered. -/
def silentPcm (d : Device) : List Int := List.replicate (nSmp d) 0

/-- An overrun output (R41): the last value fades out, or silence goes on (R42); ramps and scarfs end at their targets, filter and limiter states
are zero; the bulk-delay line takes silence for the frame that BACK did not run, or whose operation was abandoned (R378).
(log 35: DEDUCED, unsafe.) -/
def overrunOut (k : BitVec 32) (n : Nat) (d : Device) : Launched :=
  let o := outAt d n
  let ns := nSmp d
  let z := chainZero { o with live := o.prev }
  let start := if o.blk8.isSome then z.dsp.bulkDepth - ns else z.dsp.bulkDepth
  let line := if (cfg d).outBulkEn then mdrop z.bulkLine (fun a => decide ((a + 262160 - start % 262160) % 262160 < ns))
    else z.bulkLine
  let v := (List.range ns).map (fun i => fmul o.lastV (wOut ns i))
  { v := v, pcm := if o.silent.isSome then silentPcm d else requantFrame d k n v
    o := { z with
      live := o.live, silent := some 0, recover := false, overruns := inc32 o.overruns, bulkLine := line
      blk8 := none, pcm := none
      dsp := { z.dsp with bulkDepth := if (cfg d).outBulkEn then start + ns else z.dsp.bulkDepth } } }

/-- An output whose frame is complete: as it rendered, silent for 60 frames after an overrun, faded in over the 61st
(R42), or faded as a whole. -/
def onTimeOut (k : BitVec 32) (f : LaunchFade) (n : Nat) (x : List F36) (d : Device) : Launched :=
  let o := outAt d n
  let ns := nSmp d
  let zero : List F36 := silence ns
  match o.silent with
  | some c =>
    if o.recover then
      let v := fadeInFrame ns x
      let v := if f = .out then fadeOutFrame ns v else v
      { o := { o with silent := none, recover := false }, v := v, pcm := requantFrame d k n v }
    else { o := { o with silent := some (c + 1) }, v := zero, pcm := silentPcm d }
  | none =>
    match f with
    | .none => { o := o, v := x, pcm := o.pcm.getD (silentPcm d) }
    | .out => let v := fadeOutFrame ns x; { o := o, v := v, pcm := requantFrame d k n v }
    | .in_ => let v := fadeInFrame ns x; { o := o, v := v, pcm := requantFrame d k n v }

/-- Launch one output. (log 34: DEDUCED, unsafe.) -/
def launchOut (k : BitVec 32) (f : LaunchFade) (n : Nat) (d : Device) : Device :=
  let o := outAt d n
  let l := match (if o.failed then none else o.blk8) with
    | some x => onTimeOut k f n x d
    | none => overrunOut k n d
  let d := when (o.blk8.isNone || o.failed) (wipeOutLine n (l.o.dsp.bulkDepth - nSmp d)) d
  setOut n { l.o with emit8 := l.v, emitPcm := l.pcm, lastV := l.v.getLast?.getD 0 } d

/-- One event per frame in which an output overran (R43); it is a budget overrun. (log 39: DEDUCED, unsafe.) -/
def overrunEvent (e : Env) (d : Device) : Device :=
  let l := (List.range (nOut d)).filter (fun n => (outAt d n).blk8.isNone)
  if l.isEmpty then d
  else noteCause causeBudget (raise 0x3001 0x74 (leBytes 2 l.length ++ leBytes 2 (l.headD 0)) e d)

/-- Output frame `k` of every output. (log 35: DEDUCED, unsafe.) -/
def launchFrame (k : BitVec 32) (e : Env) (d : Device) : Device :=
  let f := launchFade k e d
  let d := overrunEvent e (forAll (List.range (nOut d)) (launchOut k f) d)
  { d with chn := { d.chn with launched := some k }
           pwr := { d.pwr with stepFade := if f = .in_ then 0 else d.pwr.stepFade } }

/-- One AES3 transmitter at a launch; a surplus is a hardware fault (R465, R378).
(log 41: DEDUCED, unsafe; log 43: DEDUCED, unsafe.) -/
def launchAes (k : BitVec 32) (t : Nat) (e : Env) (d : Device) : Device :=
  let was := (aoutAt d t).overrun
  let d := aoutLaunch k t e d
  let d := when ((aoutAt d t).overrun ≠ was) (hwFault 2 (0x10 + t) e) d
  aoutResetOff t e d

/-- Every sink takes output frame `k` (R25, R462, R185, R274, R425). -/
def launchSinks (k : BitVec 32) (e : Env) (d : Device) : Device :=
  let d := launchStreams k e d
  let d := forAll (List.range 16) (fun h d => aoutWrite k h e d) d
  let d := forAll (List.range 8) (fun t d => launchAes k t e d) d
  pscLaunch k d

/-- Nothing rendered is launched: every output emits silence (R15, R284). (log 45: DEDUCED, unsafe.) -/
def launchSilence (d : Device) : Device :=
  { d with chn := { d.chn with
      outs := mmap {} (fun _ (o : OutState) => { o with emit8 := [], emitPcm := [], lastV := 0 }) d.chn.outs } }

/-- What the tasks of the ended frame left is cleared for the next. -/
def clearFrame (d : Device) : Device :=
  { d with chn := { d.chn with outs := mmap {} (fun _ (o : OutState) =>
      { o with xsum := none, block3 := none, convIn := none, convOut := none, blk8 := none, pcm := none
               failed := false }) d.chn.outs } }

/-- Rendering ends once the faded frame has been launched (R284): the sinks emit silence from the next launch on,
RENDER_STOP completes. (log 45: DEDUCED, unsafe.) -/
def endRender (e : Env) (d : Device) : Device :=
  let p : PwrState := { d.pwr with
    rendering := false, started := false, stopAt := none
    stepFade := if d.pwr.stepFade = 2 then 0 else d.pwr.stepFade }
  let d := { d with pwr := p, geo := { d.geo with running := false, failed := false } }
  let stops := d.cmd.queue.filter (fun p => p.opcode = 0x0004 && p.applied)
  let d := forAll stops (fun p d => finishUid p.uid p.status [] e d) d
  when (hubOfPair d) (setPairSt .stopped 0 e) d

/-- OVERRUN_RECOVER (R42): after 60 frames on time the next one fades in. (log 35: DEDUCED, unsafe.) -/
def overrunRecover (n : Nat) (d : Device) : Device :=
  match (outAt d n).silent with
  | some c => when (decide (c ≥ 60)) (modOut n (fun o => { o with recover := true })) d
  | none => d

def execOverrunRecover (out : Nat) (s : State) : Host.Outcome State Fault Refusal :=
  act (fun _ d => when (out < nOut d) (overrunRecover out) d) s

end Sys2Proof.Machine
end

