-- ==== Sys2Proof/Machine/Tick.lean ====
section
/-! DEFINITION. TICK (R15, R21): the actions of a frame boundary in their order. The environment delivers what happens
between two ticks as commands of its own. -/
namespace Sys2Proof.Machine

/-! ## Counts and clocks that run from tick to tick -/

/-- Windows of 60 frames and the like run down. -/
def countDown (d : Device) : Device :=
  { d with
    evt := { d.evt with wait := mmap 0 (fun _ (n : Nat) => n - 1) d.evt.wait }
    geo := { d.geo with objs := mmap {} (fun _ (x : ObjState) =>
      { x with geoWait := x.geoWait - 1, xpeWait := x.xpeWait - 1 }) d.geo.objs }
    ring := { d.ring with
      rings := mmap {} (fun _ (r : Ring) => { r with unsigAge := if r.unsig = 0 then 0 else r.unsigAge + 1 }) d.ring.rings
      msixSent := [], metaRead := 0 }
    cmd := { d.cmd with readNow := 0 }
    jrn := { d.jrn with openFor := d.jrn.openFor - 1 } }

/-- Device time, phase and periods of the clocks (R428, R445); C of R183 from a tick of normal length (R442); the junction
temperature (R475). (log 9: DESIGN CHOICE, unsafe.) -/
def clockTick (i : TickIn) (e : Env) (d : Device) : Device :=
  let cyc := if d.clk.tickLen = 4096 then i.cycles else d.psc.cyc
  let d := noteTemp i.temp { d with clk := clkTick i.cycles e.fnx e.fnSync d.clk, psc := { d.psc with cyc := cyc } }
  { d with pair := { d.pair with thermalNow := d.pair.thermalNow && decide (i.temp ≥ 1680) } }

/-- The pair's counts (R223, R227, R242, R247) and what the hub decides at the tick (R231, R234, R240).
(log 8: DESIGN CHOICE, unsafe; log 89: DEDUCED, unsafe.) -/
def pairTick (e : Env) (d : Device) : Device :=
  let d := modPair (fun p => { p with
    found := p.found ++ p.foundNext, foundNext := []
    streamSilence := add32 p.streamSilence 1, statusSilence := add32 p.statusSilence 1
    delayed := match p.delayed with | some (n + 2, k) => some (n + 1, k) | _ => none }) d
  let d := standAside e (compareTick e (gapTick e d))
  modPair (fun p => { p with gotStatus := false }) d

/-- The frame `k` whose tasks ran is closed on geometry and windows; its records become canonical (R56, R86, R90). `k1` is
the frame whose evaluation ran. -/
def closeFrame (e : Env) (d : Device) : Device :=
  let k1 := e.fn - 1
  let k2 := e.fn - 2
  let d := when d.geo.running (fun d => noteCause causeBudget (geoAbandon k1 e d)) d
  let d := when (d.pwr.rendering && d.pwr.started) (xpeClose k2 e) d
  let d := formCanon d
  { d with geo := { d.geo with objs := mmap {} (fun _ (x : ObjState) =>
      { x with motion := { x.motion with jump := false } }) d.geo.objs } }

/-! ## Parameters staged for the frame just sealed (R27) -/

def latchRoute (first : Bool) (r : RouteState) : RouteState :=
  { r with prev := if first then r.app else r.live, live := r.app }

/-- Values that tick FN − 1 applied, and those before it, are what the tasks of input frame FN − 1 use; the first rendered
frame has no frame before it (R44). (log 140: DESIGN CHOICE, unsafe.) -/
def latch (e : Env) (d : Device) : Device :=
  let first := d.pwr.rendering && decide (e.fn = d.pwr.startFn + 1)
  let obj := fun (_ : Nat) (x : ObjState) => { x with
    route := latchRoute first x.route
    bulkPrev := if first then x.params.objBulk else x.bulkLive, bulkLive := x.params.objBulk }
  let out := fun (_ : Nat) (o : OutState) => { o with
    route := latchRoute first o.route, prev := if first then o.app else o.live, live := o.app }
  let d := { d with
    geo := { d.geo with objs := mmap {} obj d.geo.objs }
    chn := { d.chn with
      outs := mmap {} out d.chn.outs
      swapped := d.chn.swapped.filter (fun s => decide ((e.fn - s.2.2).toNat < 4))
      sinks3 := d.chn.sinks2, sinks2 := d.chn.sinks1, sinks1 := d.chn.sinks }
    eth := { d.eth with tx2 := d.eth.tx1, tx1 := d.eth.tx }
    xp := { d.xp with live := d.xp.app } }
  latchInputs d

/-! ## The actions of R21 -/

/-- Action 2: the doorbell fetch starts; a ring engine whose RING_GO was cleared stops (R507). -/
def fetchStart (e : Env) (d : Device) : Device :=
  let d := when d.ring.stopping (engineStop e) d
  { d with ring := { d.ring with fetching := d.ring.go && !d.pwr.quiet } }

/-- Function resets whose frame has passed (R496). -/
def resetsTick (e : Env) (d : Device) : Device :=
  let d := match d.xp.resetAt with
    | some a => when (decide (e.fn = a + 2)) (fun d => xpeRestart (e.fn - 1) { d with xp := { d.xp with resetAt := none } }) d
    | none => d
  let past := fun (a : Option (BitVec 32)) (n : Nat) =>
    match a with | some x => if (e.fn - x).toNat ≥ n then none else some x | none => none
  let d := when (decide (d.chn.cveReset.map (· + 2) = some e.fn)) clearHist d
  { d with chn := { d.chn with cveReset := past d.chn.cveReset 3 }
           inp := { d.inp with streamReset := past d.inp.streamReset 4 } }

/-- Action 3: the commands whose decided AF is FN (R29), and a hand-over agreed for FN (R248). -/
def applyTick (e : Env) (d : Device) : Device :=
  let d := fenceCheck e (applyFrame e d)
  let d := when (decide (d.pair.handover = some e.fn) && isSync d.pair) (promote e) d
  resetsTick e d

/-- The spoke's choice of the hub that supplies frame FN (R244): NO_FIT_HUB where neither candidate is fit.
(log 38: DEDUCED, unsafe.) -/
def hubSelect (e : Env) (d : Device) : Device :=
  if !d.pwr.spoke then d
  else
    let c := selectHub d.pair e.fn
    let d := when c.2 (raise 0x200F 0x73 (leBytes 1 c.1) e) d
    let keep := fun (h : HubSeen) =>
      { cands := h.cands.filter (fun q => later q.1 e.fn), audio := h.audio.filter (fun q => later q.1 (e.fn - 1)) : HubSeen }
    modPair (fun p => { p with selected := c.1, hubA := keep p.hubA, hubB := keep p.hubB }) d

/-- Each channel starts rendering in MUTED (R125): at the seal of the first frame. (log 42: DEDUCED, unsafe.) -/
def muteChans (e : Env) (d : Device) : Device :=
  if !d.pwr.rendering || e.fn ≠ d.pwr.startFn + 1 then d
  else { d with inp := { d.inp with chans := [] }
                ring := { d.ring with ain := mmap {} (fun _ (a : AinRing) => { a with chans := [] }) d.ring.ain } }

/-- Action 4: every source is sealed for input frame FN − 1 (R23), with the hub selected for it, and the metadata stamped
FN (R54), with the hub selected for FN. (log 42: DEDUCED, unsafe.) -/
def sealTick (e : Env) (d : Device) : Device :=
  let d := hubSelect e (sealSources (e.fn - 1) e (muteChans e d))
  let hub := d.pair.selected
  forAll (List.range (nObj d)) (fun o d =>
    modObj o (fun x => sealObj e.fn hub (decide (x.params.mdSrc = .command)) x) d) d

/-- Action 5: tasks of input frame FN − 2 are cancelled, a dispatcher reset clears, tasks of the frame before it are aborted (R40,
R307, R315); the tasks of input frame FN − 1 are released, at the first frame's tick the bridge tasks alone (R302), and the evaluation
of frame FN starts (R67, R86). (log 40: DEDUCED, unsafe.) (log 133: DEDUCED, unsafe.) -/
def releaseFrame (e : Env) (d : Device) : Device :=
  let k1 := e.fn - 1
  let d := abortHung (e.fn - 3) e (clearDispatcher e (cancelFrame (e.fn - 2) d))
  let d := telTick e d
  if !d.pwr.rendering || decide (d.pwr.stopAt = some (e.fn - 2)) then d
  else
    let d := { d with geo := { d.geo with
      temp := if e.fn = d.pwr.startFn then holdTemp d.geo.temp else slewTemp d.geo.temp, running := true } }
    let d := { d with pwr := { d.pwr with started := d.pwr.started || decide (k1 = d.pwr.startFn) } }
    when (d.pwr.started || decide (e.fn = d.pwr.startFn)) (releaseTick k1 d.ring.telDue (!d.pwr.started)) d

/-- The drawbar's messages of a tick (R227, R230, R232, R234, R134). -/
def drawbarTick (obj : BitVec 64) (e : Env) (d : Device) : Device :=
  if !hubOfPair d then d
  else
    let d := takeDigests (e.fn - 2) obj d
    let d := sendDraw 1 (statusPayload e d) e d
    sendSources (e.fn - 1) e (doneResend e (mirrorResend e d))

/-- Action 6: output frame FN − 2 goes to every sink; the end of rendering with its last frame. `obj` is digest 16 of that
frame. -/
def launchTick (obj : BitVec 64) (e : Env) (d : Device) : Device :=
  let k1 := e.fn - 1
  let k2 := e.fn - 2
  let on := d.pwr.rendering && d.pwr.started && decide (k1 ≠ d.pwr.startFn)
  let d := latchAuthority d
  let d := if on then launchFrame k2 e d else launchSilence d
  let d := launchSinks k2 e d
  let d := drawbarTick obj e d
  let d := statusLine e d
  let d := clearFrame (when on (retainEnd k2) d)
  let last := d.pwr.rendering && decide (d.pwr.stopAt = some k2)
  if last then endRender e d
  else when (d.pwr.rendering && d.pwr.started) (retainStart k1) d

/-- A state copy that waited takes this frame (R312, R313). -/
def copyTick (e : Env) (d : Device) : Device :=
  match d.disp.copy, d.disp.copyNext with
  | none, j :: r => copyStart e { d with disp := { d.disp with copy := some j, copyNext := r } }
  | _, _ => d

/-- Everything a tick does. -/
def tickAll (i : TickIn) (e : Env) (d : Device) : Device :=
  let obj := if hubOfPair d then objDigest (e.fn - 2) d else 0
  -- what the frame that ends leaves
  let d := clockTick i e (countDown d)
  let d := forAll i.seqErrs (fun f d => hwFault 3 f e d) d
  let d := patrol i.patrolBad e (forAll i.upsets strike d)
  let d := modPair (fun p => { p with sent := p.sent.filter (fun m => m.fn = e.fn) }) d
  let d := pairTick e (finishFrame e d)
  let d := latch e (closeFrame e d)
  let d := senseTick e (portTick (pchShift (decTick i.bits d)))
  -- the actions of R21
  let d := fetchStart e d
  let d := serveTick e (applyTick e (loadTick e d))
  let d := protectTick (pscTick e (sealTick e d))
  let d := releaseFrame e d
  let d := launchTick obj e d
  -- what waits for the tick
  let d := takeForms e (copyTick e d)
  { d with pwr := { d.pwr with stepFade := if fnStepDue e.fnSync d then 1 else d.pwr.stepFade } }

/-- The frame numbers at a tick: FN counts from 0 at the first tick after the tick started (R17, R19). -/
def nextFrame (ticked : Bool) (c : FrameClock) : FrameClock :=
  if ticked then { c with fn := c.fn + 1, fnx := c.fnx + 1 } else { c with fn := 0, fnx := 0 }

/-- TICK (R21): while the tick runs. (log 8: DESIGN CHOICE, unsafe; log 11: DESIGN CHOICE, safe.)
(log 116: DESIGN CHOICE, safe.) -/
def execTick (i : TickIn) (s : State) : Host.Outcome State Fault Refusal :=
  if s.dev.alive && s.dev.clk.tickOn then
    runDev { fails := i.fails } (fun e d => tickAll i e { d with clk := { d.clk with ticked := true } })
      { s with fc := nextFrame s.dev.clk.ticked s.fc }
  else .next s

/-! ## The FN step (R19, R442) -/

/-- Host and stream buffers keep their place in time. (log 36: DEDUCED, unsafe.) -/
def shiftInputs (n : BitVec 32) (d : Device) : Device :=
  let frames := fun (l : List RxFrame) => l.map (fun f => { f with frame := f.frame + n })
  let next := fun (x : Option (BitVec 32 × Nat)) => x.map (fun q => (q.1 + n, q.2))
  { d with
    inp := { d.inp with
      bufs := mmap {} (fun _ (b : RxBuf) => { p0 := frames b.p0, p1 := frames b.p1 : RxBuf }) d.inp.bufs
      rxSeq := mmap {} (fun _ (s : RxSeq) => { s with next0 := next s.next0, next1 := next s.next1 }) d.inp.rxSeq
      nc := d.inp.nc.map (· + n)
      ownerFrames := d.inp.ownerFrames.map (fun f => (f.1, f.2.1 + n, f.2.2))
      streamReset := d.inp.streamReset.map (· + n) }
    ring := { d.ring with ain := mmap {} (fun _ (a : AinRing) =>
      { a with held := a.held.map (fun h => (h.1 + n, h.2)), expect := a.expect.map (· + n) }) d.ring.ain }
    geo := { d.geo with objs := mmap {} (fun _ (x : ObjState) =>
      { x with pend := x.pend.map (fun p => { p with stamp := p.stamp + n }), sealed := x.sealed.map (· + n) }) d.geo.objs } }

/-- Crosspoint banks and the dispatcher's entries go by the parity of the frame. -/
def swapBanks (x : XPoint) : XPoint := { x with d0 := x.d1, g0 := x.g1, j0 := x.j1, d1 := x.d0, g1 := x.g0, j1 := x.j0 }
def swapStore (m : SMap (BitVec 8)) : SMap (BitVec 8) :=
  msets 0 [] (m.map (fun p => (if p.1 % 2 = 0 then p.1 + 1 else p.1 - 1, p.2)))

/-- The frames of the engines, the tasks and the chains are numbered anew. (log 36: DEDUCED, unsafe.) -/
def shiftEngines (n : BitVec 32) (d : Device) : Device :=
  let odd := n.getLsbD 0
  let work := fun (w : Work) => { w with frame := w.frame + n }
  let slot := fun (_ : Nat) (c : CoreSlot) =>
    { c with running := c.running.map work, ready := c.ready.map work, suspended := c.suspended.map work }
  let g := n.toNat * nSmp d
  let hist := fun (m : SMap F36) => msets 0 [] (m.map (fun p => ((p.1 + g) % (pow2 32 * nSmp d), p.2)))
  { d with
    xp := { d.xp with
      xps := if odd then mmap {} (fun _ x => swapBanks x) d.xp.xps else d.xp.xps
      rampFrom := d.xp.rampFrom.map (· + n), resetAt := d.xp.resetAt.map (· + n) }
    chn := { d.chn with
      outs := mmap {} (fun _ (o : OutState) => { o with convHist := hist o.convHist, convEnd := o.convEnd + g }) d.chn.outs
      swapped := d.chn.swapped.map (fun s => (s.1, s.2.1, s.2.2 + n))
      cveReset := d.chn.cveReset.map (· + n), launched := d.chn.launched.map (· + n) }
    disp := { d.disp with
      cores := mmap {} slot d.disp.cores, background := d.disp.background.map work, reruns := d.disp.reruns.map work
      finished := d.disp.finished.map (fun p => (p.1, p.2 + n)), cancelled := d.disp.cancelled.map (· + n)
      resetAt := d.disp.resetAt.map (· + n)
      store := if odd then swapStore d.disp.store else d.disp.store }
    cores := mmap {} (fun _ (c : CoreState) =>
      { c with parked := c.parked.map (fun p => { p with work := work p.work }) }) d.cores
    psc := { d.psc with pch := mmap {} (fun _ (p : Pch) =>
      { p with sched := p.sched.map (fun s => (s.1 + n, s.2)) }) d.psc.pch }
    aes := { d.aes with aout := mmap {} (fun _ (p : AoutPort) => { p with resetAt := p.resetAt + n }) d.aes.aout }
    pwr := { d.pwr with startFn := d.pwr.startFn + n, stopAt := d.pwr.stopAt.map (· + n) } }

/-- Commands that wait and the pair's frames are numbered anew. -/
def shiftHost (n : BitVec 32) (d : Device) : Device :=
  let cmd := fun (p : Pend) =>
    { p with af := p.af + n, stageBy := p.stageBy + n, doneAt := p.doneAt.map (· + n)
             members := p.members.map (fun m => { m with af := m.af + n }) }
  let hub := fun (h : HubSeen) =>
    { cands := h.cands.map (fun q => (q.1 + n, q.2)), audio := h.audio.map (fun q => (q.1 + n, q.2)) : HubSeen }
  { d with
    cmd := { d.cmd with queue := d.cmd.queue.map cmd }
    pair := { d.pair with
      own := d.pair.own.map (fun g => { g with frame := g.frame + n })
      retained := d.pair.retained.map (fun r => { r with frame := r.frame + n })
      rerun := d.pair.rerun.map (fun r => { r with dfn := r.dfn + n, started := r.started + n })
      ownDone := d.pair.ownDone.map (fun q => (q.1, q.2.1, q.2.2 + n))
      handover := d.pair.handover.map (· + n), hubA := hub d.pair.hubA, hubB := hub d.pair.hubB } }

/-- The step at the end of the lengthened tick: `n` is the difference of the numbers, `fnx` the new boundary's FNX. While
rendering runs, every command that waits completes with FN_STEPPED, unapplied. -/
def stepFrames (n : BitVec 32) (old : BitVec 32) (e : Env) (d : Device) : Device :=
  let len := stepLen d.clk
  let on := d.pwr.rendering
  let d := when on (fun d => dropAll 3 (d.cmd.queue.filter (fun p => !p.applied)) e d) d
  let d := shiftHost n (shiftEngines n (shiftInputs n d))
  let d := { d with
    clk := { d.clk with stepped := false, tickLen := len }
    eth := { d.eth with mr := !d.eth.mr }
    aes := { d.aes with aout := mmap {} (fun _ (p : AoutPort) => { p with cut := p.cut || p.en }) d.aes.aout }
    pwr := { d.pwr with stepFade := if on then 2 else 0 } }
  raise 0x100E 0 (leBytes 4 old.toNat) e d

/-- FN_STEP (R19, R442): the tick whose conditions held ends at the new boundary; the next TICK is the first of the new
numbers. (log 36: DEDUCED, unsafe.) -/
def execFnStep (s : State) : Host.Outcome State Fault Refusal :=
  if s.dev.alive && decide (s.dev.pwr.stepFade = 1) then
    let fnx : BitVec 64 := BitVec.ofNat 64 (stepFnx s.dev.clk - 1)
    let fc : FrameClock := { fn := fnx.setWidth 32, fnx := fnx, fnSync := true }
    runDev {} (fun e d => stepFrames (e.fn - s.fc.fn) s.fc.fn e d) { s with fc := fc }
  else .next s

end Sys2Proof.Machine
end

