-- ==== Sys2Proof/Machine/Dispatch.lean ====
section
/-! DEFINITION. What each command does: one arm per constructor of `Instr`, each one direct call of its meaning. -/
namespace Sys2Proof.Machine

def exec (i : Instr) (s : State) : Host.Outcome State Fault Refusal :=
  match i with
  | .nop c h => Sys2Proof.Machine.execNop c h s
  | .fence c h => Sys2Proof.Machine.execFence c h s
  | .renderStart c h => Sys2Proof.Machine.execRenderStart c h s
  | .renderStop c h => Sys2Proof.Machine.execRenderStop c h s
  | .funcReset c h => Sys2Proof.Machine.execFuncReset c h s
  | .coreOffline c h => Sys2Proof.Machine.execCoreOffline c h s
  | .coreOnline c h => Sys2Proof.Machine.execCoreOnline c h s
  | .ringSetup c h => Sys2Proof.Machine.execRingSetup c h s
  | .traceCtl c h => Sys2Proof.Machine.execTraceCtl c h s
  | .query c h => Sys2Proof.Machine.execQuery c h s
  | .objMotion c h => Sys2Proof.Machine.execObjMotion c h s
  | .spkCommit c h => Sys2Proof.Machine.execSpkCommit c h s
  | .triCommit c h => Sys2Proof.Machine.execTriCommit c h s
  | .dirtabLoad c h => Sys2Proof.Machine.execDirtabLoad c h s
  | .directLoad c h => Sys2Proof.Machine.execDirectLoad c h s
  | .paramWrite c h => Sys2Proof.Machine.execParamWrite c h s
  | .groupSet c h => Sys2Proof.Machine.execGroupSet c h s
  | .coefLoad c h => Sys2Proof.Machine.execCoefLoad c h s
  | .route c h => Sys2Proof.Machine.execRoute c h s
  | .streamRx c h => Sys2Proof.Machine.execStreamRx c h s
  | .streamTx c h => Sys2Proof.Machine.execStreamTx c h s
  | .sinkSet c h => Sys2Proof.Machine.execSinkSet c h s
  | .decRun c h => Sys2Proof.Machine.execDecRun c h s
  | .pchStart c h => Sys2Proof.Machine.execPchStart c h s
  | .pchStop c h => Sys2Proof.Machine.execPchStop c h s
  | .pchDiag c h => Sys2Proof.Machine.execPchDiag c h s
  | .pchClear c h => Sys2Proof.Machine.execPchClear c h s
  | .limitCommit c h => Sys2Proof.Machine.execLimitCommit c h s
  | .servoOffset c h => Sys2Proof.Machine.execServoOffset c h s
  | .epochSet c h => Sys2Proof.Machine.execEpochSet c h s
  | .clockRef c h => Sys2Proof.Machine.execClockRef c h s
  | .pairJoin c h => Sys2Proof.Machine.execPairJoin c h s
  | .pairRejoin c h => Sys2Proof.Machine.execPairRejoin c h s
  | .pairWithdraw c h => Sys2Proof.Machine.execPairWithdraw c h s
  | .pairHandover c h => Sys2Proof.Machine.execPairHandover c h s
  | .imgLoad h => Sys2Proof.Machine.execImgLoad h s
  | .imgLoadDone h => Sys2Proof.Machine.execImgLoadDone h s
  | .devReset v => Sys2Proof.Machine.execDevReset v s
  | .quietEnter => Sys2Proof.Machine.execQuietEnter s
  | .quietExit => Sys2Proof.Machine.execQuietExit s
  | .pwrCycle v => Sys2Proof.Machine.execPwrCycle v s
  | .limitUnlock v => Sys2Proof.Machine.execLimitUnlock v s
  | .limitUnlockExpire => Sys2Proof.Machine.execLimitUnlockExpire s
  | .ringGoSet h => Sys2Proof.Machine.execRingGoSet h s
  | .ringGoClear => Sys2Proof.Machine.execRingGoClear s
  | .srvGo => Sys2Proof.Machine.execSrvGo s
  | .epGo => Sys2Proof.Machine.execEpGo s
  | .cref v => Sys2Proof.Machine.execCref v s
  | .timeNsRead cyc => Sys2Proof.Machine.execTimeNsRead cyc s
  | .statClr port => Sys2Proof.Machine.execStatClr port s
  | .tsqPop port => Sys2Proof.Machine.execTsqPop port s
  | .dbgRead => Sys2Proof.Machine.execDbgRead s
  | .dbgWrite => Sys2Proof.Machine.execDbgWrite s
  | .c22Write phyad regad data => Sys2Proof.Machine.execC22Write phyad regad data s
  | .c22Read phyad regad => Sys2Proof.Machine.execC22Read phyad regad s
  | .c45Address phyad devad addr => Sys2Proof.Machine.execC45Address phyad devad addr s
  | .c45Write phyad devad data => Sys2Proof.Machine.execC45Write phyad devad data s
  | .c45Read phyad devad => Sys2Proof.Machine.execC45Read phyad devad s
  | .mdioDone data => Sys2Proof.Machine.execMdioDone data s
  | .csCommit tx sub => Sys2Proof.Machine.execCsCommit tx sub s
  | .uCommit tx sub => Sys2Proof.Machine.execUCommit tx sub s
  | .registerWrite offset size value => Sys2Proof.Machine.execRegisterWrite offset size value s
  | .tick world => Sys2Proof.Machine.execTick world s
  | .fnStep => Sys2Proof.Machine.execFnStep s
  | .doorbellFetchDone ok h => Sys2Proof.Machine.execDoorbellFetchDone ok h s
  | .hbStale => Sys2Proof.Machine.execHbStale s
  | .heartbeatWatchdog => Sys2Proof.Machine.execHeartbeatWatchdog s
  | .pwrCycleReq => Sys2Proof.Machine.execPwrCycleReq s
  | .ringFault ring => Sys2Proof.Machine.execRingFault ring s
  | .didxWriteback ring => Sys2Proof.Machine.execDidxWriteback ring s
  | .resultWrite => Sys2Proof.Machine.execResultWrite s
  | .eventDescriptorWrite => Sys2Proof.Machine.execEventDescriptorWrite s
  | .traceDescriptorWrite => Sys2Proof.Machine.execTraceDescriptorWrite s
  | .telemetryRecord => Sys2Proof.Machine.execTelemetryRecord s
  | .mdStale obj => Sys2Proof.Machine.execMdStale obj s
  | .overrunRecover out => Sys2Proof.Machine.execOverrunRecover out s
  | .streamRevive source => Sys2Proof.Machine.execStreamRevive source s
  | .stagingDone ridx h => Sys2Proof.Machine.execStagingDone ridx h s
  | .geoEvalDone => Sys2Proof.Machine.execGeoEvalDone s
  | .bayEngineStart bay => Sys2Proof.Machine.execBayEngineStart bay s
  | .reductionDone out => Sys2Proof.Machine.execReductionDone out s
  | .cveDone out => Sys2Proof.Machine.execCveDone out s
  | .bulkReadDone obj => Sys2Proof.Machine.execBulkReadDone obj s
  | .recordArrival source hub record => Sys2Proof.Machine.execRecordArrival source hub record s
  | .taskDispatch core => Sys2Proof.Machine.execTaskDispatch core s
  | .objectAudioQueue slot => Sys2Proof.Machine.execObjectAudioQueue slot s
  | .copyEnd => Sys2Proof.Machine.execCopyEnd s
  | .insnNop core f => Sys2Proof.Machine.execInsnNop core f s
  | .fadd core f => Sys2Proof.Machine.execFadd core f s
  | .fsub core f => Sys2Proof.Machine.execFsub core f s
  | .fmul core f => Sys2Proof.Machine.execFmul core f s
  | .fmac core f => Sys2Proof.Machine.execFmac core f s
  | .fmsc core f => Sys2Proof.Machine.execFmsc core f s
  | .fmin core f => Sys2Proof.Machine.execFmin core f s
  | .fmax core f => Sys2Proof.Machine.execFmax core f s
  | .fabs core f => Sys2Proof.Machine.execFabs core f s
  | .fneg core f => Sys2Proof.Machine.execFneg core f s
  | .fmov core f => Sys2Proof.Machine.execFmov core f s
  | .fdiv core f => Sys2Proof.Machine.execFdiv core f s
  | .fsqrt core f => Sys2Proof.Machine.execFsqrt core f s
  | .fcmp core f => Sys2Proof.Machine.execFcmp core f s
  | .fexp core f => Sys2Proof.Machine.execFexp core f s
  | .fscl core f => Sys2Proof.Machine.execFscl core f s
  | .fmant core f => Sys2Proof.Machine.execFmant core f s
  | .itof core f => Sys2Proof.Machine.execItof core f s
  | .ftoi core f => Sys2Proof.Machine.execFtoi core f s
  | .ptof core f => Sys2Proof.Machine.execPtof core f s
  | .ftop core f => Sys2Proof.Machine.execFtop core f s
  | .iadd core f => Sys2Proof.Machine.execIadd core f s
  | .isub core f => Sys2Proof.Machine.execIsub core f s
  | .imul core f => Sys2Proof.Machine.execImul core f s
  | .iand core f => Sys2Proof.Machine.execIand core f s
  | .ior core f => Sys2Proof.Machine.execIor core f s
  | .ixor core f => Sys2Proof.Machine.execIxor core f s
  | .ishl core f => Sys2Proof.Machine.execIshl core f s
  | .ishr core f => Sys2Proof.Machine.execIshr core f s
  | .ilsr core f => Sys2Proof.Machine.execIlsr core f s
  | .icmp core f => Sys2Proof.Machine.execIcmp core f s
  | .icls core f => Sys2Proof.Machine.execIcls core f s
  | .dmov core f => Sys2Proof.Machine.execDmov core f s
  | .iaddi core dst src imm => Sys2Proof.Machine.execIaddi core dst src imm s
  | .ldi core dst imm => Sys2Proof.Machine.execLdi core dst imm s
  | .mts core sreg d => Sys2Proof.Machine.execMts core sreg d s
  | .mfs core sreg d => Sys2Proof.Machine.execMfs core sreg d s
  | .mtsi core sreg imm => Sys2Proof.Machine.execMtsi core sreg imm s
  | .paddi core areg imm => Sys2Proof.Machine.execPaddi core areg imm s
  | .ldf core dst lane imm => Sys2Proof.Machine.execLdf core dst lane imm s
  | .br core cond target => Sys2Proof.Machine.execBr core cond target s
  | .call core cond target => Sys2Proof.Machine.execCall core cond target s
  | .ret core cond => Sys2Proof.Machine.execRet core cond s
  | .rep core count end_ => Sys2Proof.Machine.execRep core count end_ s
  | .repd core cnt end_ => Sys2Proof.Machine.execRepd core cnt end_ s
  | .hold core n => Sys2Proof.Machine.execHold core n s
  | .waitx core mask => Sys2Proof.Machine.execWaitx core mask s
  | .done core => Sys2Proof.Machine.execDone core s
  | .xfer core write tag ps da count => Sys2Proof.Machine.execXfer core write tag ps da count s
  | .xferComplete core tag => Sys2Proof.Machine.execXferComplete core tag s
  | .xbarRequest r => Sys2Proof.Machine.execXbarRequest r s
  | .xbarGrant target => Sys2Proof.Machine.execXbarGrant target s
  | .transactionDone served => Sys2Proof.Machine.execTransactionDone served s
  | .masterResetRelease master => Sys2Proof.Machine.execMasterResetRelease master s
  | .eccWriteback place => Sys2Proof.Machine.execEccWriteback place s
  | .dramEccWriteback ch w => Sys2Proof.Machine.execDramEccWriteback ch w s
  | .refreshDue ch => Sys2Proof.Machine.execRefreshDue ch s
  | .dramTempRead ch hot => Sys2Proof.Machine.execDramTempRead ch hot s
  | .zqShortCal ch => Sys2Proof.Machine.execZqShortCal ch s
  | .bankIdlePrecharge ch bank => Sys2Proof.Machine.execBankIdlePrecharge ch bank s
  | .alertParity ch => Sys2Proof.Machine.execAlertParity ch s
  | .alertStuck ch => Sys2Proof.Machine.execAlertStuck ch s
  | .selfRefreshRetry ch => Sys2Proof.Machine.execSelfRefreshRetry ch s
  | .dramInitDone ch cfg badLane => Sys2Proof.Machine.execDramInitDone ch cfg badLane s
  | .statusRx m => Sys2Proof.Machine.execStatusRx m s
  | .missedHeartbeat => Sys2Proof.Machine.execMissedHeartbeat s
  | .drawbarBack => Sys2Proof.Machine.execDrawbarBack s
  | .mirrorRx mseq af ridx marks desc h => Sys2Proof.Machine.execMirrorRx mseq af ridx marks desc h s
  | .mirrorDoneRx mseq status => Sys2Proof.Machine.execMirrorDoneRx mseq status s
  | .mirrorDoneTimeout mseq => Sys2Proof.Machine.execMirrorDoneTimeout mseq s
  | .sourceRx source frame samples => Sys2Proof.Machine.execSourceRx source frame samples s
  | .ownerFrameMissing source => Sys2Proof.Machine.execOwnerFrameMissing source s
  | .rerunDone => Sys2Proof.Machine.execRerunDone s
  | .rerunDeadline => Sys2Proof.Machine.execRerunDeadline s
  | .rerunRx dfn rerun consistent => Sys2Proof.Machine.execRerunRx dfn rerun consistent s
  | .rerunVerdict => Sys2Proof.Machine.execRerunVerdict s
  | .resyncReqRx req => Sys2Proof.Machine.execResyncReqRx req s
  | .resyncDataRx stage taken item => Sys2Proof.Machine.execResyncDataRx stage taken item s
  | .resyncStageDone => Sys2Proof.Machine.execResyncStageDone s
  | .resyncDone => Sys2Proof.Machine.execResyncDone s
  | .withdrawRx cause => Sys2Proof.Machine.execWithdrawRx cause s
  | .handoverRx frame => Sys2Proof.Machine.execHandoverRx frame s
  | .withdrawn => Sys2Proof.Machine.execWithdrawn s
  | .promoted => Sys2Proof.Machine.execPromoted s
  | .demoted => Sys2Proof.Machine.execDemoted s
  | .rxClassify port head cyc => Sys2Proof.Machine.execRxClassify port head cyc s
  | .rxFrameEnd port frame fcsOk codeErr => Sys2Proof.Machine.execRxFrameEnd port frame fcsOk codeErr s
  | .aafRx port packet => Sys2Proof.Machine.execAafRx port packet s
  | .aes67Rx port packet => Sys2Proof.Machine.execAes67Rx port packet s
  | .metadataRx port packet => Sys2Proof.Machine.execMetadataRx port packet s
  | .pauseExpire port => Sys2Proof.Machine.execPauseExpire port s
  | .txStart port h => Sys2Proof.Machine.execTxStart port h s
  | .txDeparture port cyc => Sys2Proof.Machine.execTxDeparture port cyc s
  | .eeeLpiEnter => Sys2Proof.Machine.execEeeLpiEnter s
  | .eeeWake => Sys2Proof.Machine.execEeeWake s
  | .linkDown port => Sys2Proof.Machine.execLinkDown port s
  | .linkUp port => Sys2Proof.Machine.execLinkUp port s
  | .portResetTimeout port => Sys2Proof.Machine.execPortResetTimeout port s
  | .aes3FrameRx rx z s1 s2 => Sys2Proof.Machine.execAes3FrameRx rx z s1 s2 s
  | .ainLock rx rate => Sys2Proof.Machine.execAinLock rx rate s
  | .ainLost rx cause => Sys2Proof.Machine.execAinLost rx cause s
  | .ratioLock rx => Sys2Proof.Machine.execRatioLock rx s
  | .aoutBlockStart tx => Sys2Proof.Machine.execAoutBlockStart tx s
  | .bsStuck chain => Sys2Proof.Machine.execBsStuck chain s
  | .tdAssert chain lo => Sys2Proof.Machine.execTdAssert chain lo s
  | .tdRelease chain lo => Sys2Proof.Machine.execTdRelease chain lo s
  | .decFillDone chain => Sys2Proof.Machine.execDecFillDone chain s
  | .ocComparator pch => Sys2Proof.Machine.execOcComparator pch s
  | .iSenseTrip pch => Sys2Proof.Machine.execISenseTrip pch s
  | .cmUpDone pch => Sys2Proof.Machine.execCmUpDone pch s
  | .cmDownDone pch => Sys2Proof.Machine.execCmDownDone pch s
  | .ocWaitExpire pch => Sys2Proof.Machine.execOcWaitExpire pch s
  | .rcClear pch => Sys2Proof.Machine.execRcClear pch s
  | .pchResetDone pch => Sys2Proof.Machine.execPchResetDone pch s
  | .diagPhaseEnd => Sys2Proof.Machine.execDiagPhaseEnd s
  | .railLow group => Sys2Proof.Machine.execRailLow group s
  | .railOver group => Sys2Proof.Machine.execRailOver group s
  | .reWindowEnd pch => Sys2Proof.Machine.execReWindowEnd pch s
  | .limitCommitted readBackOk => Sys2Proof.Machine.execLimitCommitted readBackOk s
  | .tempWarn temp => Sys2Proof.Machine.execTempWarn temp s
  | .thermalShutdown temp => Sys2Proof.Machine.execThermalShutdown temp s
  | .thermalRecover temp => Sys2Proof.Machine.execThermalRecover temp s
  | .sysPllLoss => Sys2Proof.Machine.execSysPllLoss s
  | .sysPllLock => Sys2Proof.Machine.execSysPllLock s
  | .refLost cond => Sys2Proof.Machine.execRefLost cond s
  | .refQualified => Sys2Proof.Machine.execRefQualified s
  | .alignDone => Sys2Proof.Machine.execAlignDone s
  | .bandSearchDone => Sys2Proof.Machine.execBandSearchDone s
  | .mediaPllLock => Sys2Proof.Machine.execMediaPllLock s
  | .mediaPllTimeout => Sys2Proof.Machine.execMediaPllTimeout s
  | .mediaPllRetry => Sys2Proof.Machine.execMediaPllRetry s
  | .servoTimeout => Sys2Proof.Machine.execServoTimeout s
  | .epochWrap => Sys2Proof.Machine.execEpochWrap s
  | .powerUp => Sys2Proof.Machine.execPowerUp s
  | .supplyFault => Sys2Proof.Machine.execSupplyFault s
  | .resetNAssert => Sys2Proof.Machine.execResetNAssert s
  | .resetNRelease roleSel => Sys2Proof.Machine.execResetNRelease roleSel s
  | .sramClearDone badSpares => Sys2Proof.Machine.execSramClearDone badSpares s
  | .flr => Sys2Proof.Machine.execFlr s
  | .d3hotEntry => Sys2Proof.Machine.execD3hotEntry s
  | .warmReset => Sys2Proof.Machine.execWarmReset s
  | .resetDone => Sys2Proof.Machine.execResetDone s
  | .d3hotExit => Sys2Proof.Machine.execD3hotExit s
  | .busMasterEnable on => Sys2Proof.Machine.execBusMasterEnable on s
  | .vectorUnmask vec => Sys2Proof.Machine.execVectorUnmask vec s
  | .txUnderrun tx => Sys2Proof.Machine.execTxUnderrun tx s
  | .alertNHigh ch => Sys2Proof.Machine.execAlertNHigh ch s

end Sys2Proof.Machine
end

