-- ==== Sys2Proof/Machine/Step.lean ====
section
/-! DEFINITION. One step of the block: the command at the front of the queue, on the queue's rest. The block has
no program: commands come to the queue from outside (the host, the far ends, the physical world). -/
namespace Sys2Proof.Machine

/-- One step: the command at the front of the queue acts; on an empty queue the block idles (DESIGN CHOICE, log 1). -/
def step (s : State) : Host.Outcome State Fault Refusal :=
  match s.pending with
  | [] => .next s
  | c :: rest => exec c { s with pending := rest }

/-- The command that a word spells, put at the front of the queue; no row of the table gives bits, so no word
spells one and the state is unchanged. (log 4: DESIGN CHOICE, safe.) -/
def State.withFetchWord (s : State) (nbits w : Nat) : State :=
  match decodeTableWord nbits w with
  | some c => { s with pending := c :: s.pending }
  | none => s

end Sys2Proof.Machine
end

