-- ==== Sys2Proof/Safety.lean ====
section
/-! DEFINITION. What counts as a safe step, and the terms in which statements speak of one: what a command reads, the
state it leaves. -/
namespace Sys2Proof.Machine

/-- The step from `s` neither faults nor is refused. -/
def SafeStep (s : State) : Prop := ∃ t, step s = .next t

/-- What a command reads beside the device: the frame numbers, host memory after the host's stores, the ranges whose
reads fail. -/
def envOf (h : HostView) (s : State) : Env :=
  { fn := s.fc.fn, fnx := s.fc.fnx, fnSync := s.fc.fnSync, mem := msets 0 s.hostMem h.stores, fails := h.fails }

/-- The state that a command leaves which makes `d` of the device: the host's stores and the posted writes of `d` have
landed in host memory, FN_SYNC is clear in the quiet state, nothing else differs. -/
def State.after (s : State) (h : HostView) (d : Device) : State :=
  { s with
    fc := { s.fc with fnSync := s.fc.fnSync && !d.pwr.quiet }
    dev := { d with outbox := [] }
    hostMem := memWrites (msets 0 s.hostMem h.stores) d.outbox }

end Sys2Proof.Machine
end

