-- ==== Sys2Proof/Certificates/Slice0/Obligations.lean ====
section
/-! DEFINITION. The statements for the provers: what each command of the table does, what the machine keeps, by the rules of
the spec. `s.after h d` is the state that a command leaves which makes `d` of the device (Safety.lean). -/
section Statements
open Sys2Proof Sys2Proof.Machine

/-! ## Frame numbers, the queue, the whole machine -/

/-- Later, equal and earlier frame numbers (R18). -/
def Obligations.FrameNumbersCompareModuloTwoTo32 : Prop :=
  ∀ a b : BitVec 32,
    (later a b = true ↔ 1 ≤ (a - b).toNat ∧ (a - b).toNat < 2 ^ 31)
      ∧ (a = b ↔ (a - b).toNat = 0)
      ∧ (earlier a b = true ↔ ¬(1 ≤ (a - b).toNat ∧ (a - b).toNat < 2 ^ 31) ∧ (a - b).toNat ≠ 0)

/-- A step runs the command at the front of the queue on the queue's rest; on an empty queue the block idles (the model's
choice, log 1). -/
def Obligations.StepRunsTheFrontCommand : Prop :=
  (∀ (c : Instr) (rest : List Instr) (s : State),
      step { s with pending := c :: rest } = exec c { s with pending := rest })
    ∧ ∀ s : State, s.pending = [] → step s = .next s

/-- Every command answers a next state, in every state, and leaves the queue of waiting commands alone. -/
def Obligations.EveryCommandAnswersANextState : Prop :=
  ∀ (c : Instr) (s : State), ∃ t, exec c s = .next t ∧ t.pending = s.pending

/-- The invariant: host memory is in its canonical form (the model's, log 2), FN = FNX mod 2^32 (R17), FN_SYNC is clear in
the quiet state (R487), every posted write has landed. -/
def Sys2Proof.Machine.Sound (s : State) : Prop :=
  Memory.wf s.hostMem = true ∧ s.fc.fn = s.fc.fnx.setWidth 32 ∧ (s.dev.pwr.quiet = true → s.fc.fnSync = false)
    ∧ s.dev.outbox = []

/-- Every step keeps the invariant. -/
def Obligations.EveryStepKeepsSoundness : Prop :=
  ∀ s t : State, Sound s → step s = .next t → Sound t

/-- The machine after reset meets the invariant. -/
def Obligations.ResetIsSound : Prop := Sound State.reset

/-- FN = FNX mod 2^32 before and after every step (R17). -/
def Obligations.FnIsTheLowHalfOfFnx : Prop :=
  State.reset.fc.fn = State.reset.fc.fnx.setWidth 32
    ∧ ∀ s t : State, s.fc.fn = s.fc.fnx.setWidth 32 → step s = .next t → t.fc.fn = t.fc.fnx.setWidth 32

/-! ## Events and posted writes -/

/-- The event that `raise` makes (R269): its class and number, its function, FN, TIME_NS, six bytes of DETAIL. -/
def Sys2Proof.Machine.eventOf (code func : Nat) (detail : List Byte) (e : Env) (d : Device) : Event :=
  { code := code, func := BitVec.ofNat 8 func, fn := e.fn, timeNs := timeNs d, detail := sub detail 0 6 }

/-- The store with room takes the event last; a full one gives up its oldest NOTE or WARN to a FAULT or SAFETY event and
drops any other; either loss counts. Nothing else of the device changes. -/
def Obligations.EventStoreHolds256Events : Prop :=
  ∀ (code func : Nat) (detail : List Byte) (e : Env) (d : Device), d.evt.store.length ≤ 256 →
    let v := eventOf code func detail e d
    let minor : Event → Bool := fun x => decide (x.code / 0x1000 < 3)
    (d.evt.store.length < 256 → raise code func detail e d = { d with evt := { d.evt with store := d.evt.store ++ [v] } })
    ∧ (d.evt.store.length = 256 → code / 0x1000 < 3 →
        raise code func detail e d
          = { d with evt := { d.evt with lost := inc32 d.evt.lost, lostNow := inc32 d.evt.lostNow } })
    ∧ (∀ (l r : List Event) (x : Event), d.evt.store.length = 256 → 3 ≤ code / 0x1000 → d.evt.store = l ++ x :: r →
        minor x = true → (∀ y ∈ l, minor y = false) →
        raise code func detail e d
          = { d with evt := { d.evt with store := l ++ r ++ [v], lost := inc32 d.evt.lost, lostNow := inc32 d.evt.lostNow } })
    ∧ (d.evt.store.length = 256 → 3 ≤ code / 0x1000 → (∀ y ∈ d.evt.store, minor y = false) →
        raise code func detail e d
          = { d with evt := { d.evt with lost := inc32 d.evt.lost, lostNow := inc32 d.evt.lostNow } })
    ∧ (raise code func detail e d).evt.store.length ≤ 256

/-- A byte of host memory after a command: the byte that a posted write of the command put there, else the byte that the
host or earlier memory holds. While the device issues no DMA it posts nothing (R252). -/
def Obligations.PostedWritesChangeOnlyTheirBytes : Prop :=
  (∀ (a : Nat) (l : List Byte) (d : Device), (d.ring.busMaster = false ∨ d.ring.d3hot = true) → post a l d = d)
    ∧ (∀ (a : Nat) (l : List Byte) (d : Device), d.ring.busMaster = true → d.ring.d3hot = false →
        post a l d = { d with outbox := d.outbox ++ [(a, l)] })
    ∧ (∀ (m : List Host.Cell) (a b : Nat) (l : List Byte), (b < a ∨ a + l.length ≤ b) →
        memByte (memWrite m a l) b = memByte m b)
    ∧ ∀ (m : List Host.Cell) (a i : Nat) (l : List Byte), i < l.length → memByte (memWrite m a l) (a + i) = l.getD i 0

/-! ## The rings (chapter 08) -/

/-- BUS_MASTER_ENABLE, D3HOT_ENTRY and D3HOT_EXIT set their bit; RING_GO_CLEAR lets the engine stop at the next tick;
VECTOR_UNMASK clears a vector's mask and sends its pending message. HB_STALE is raised once when HB_AGE reaches 600.
RING_FAULT stops a ring whose reads failed four times and reports it. -/
def Sys2Proof.Machine.RingSwitchesActOnTheirBits : Prop :=
  ∀ s : State, s.dev.alive = true →
    let d := s.dev
    let e := envOf {} s
    (d.pwr.sramClear = true →
      (∀ on : Bool, exec (.busMasterEnable on) s = .next (s.after {} { d with ring := { d.ring with busMaster := on } }))
      ∧ exec .d3hotEntry s = .next (s.after {} { d with ring := { d.ring with d3hot := true } })
      ∧ exec .d3hotExit s = .next (s.after {} { d with ring := { d.ring with d3hot := false } })
      ∧ (d.ring.go = true →
          exec .ringGoClear s = .next (s.after {} { d with ring := { d.ring with stopping := true } }))
      ∧ (d.ring.go = false → exec .ringGoClear s = .next (s.after {} d))
      ∧ (∀ v : Nat, v < 32 →
          let b : BitVec 32 := BitVec.ofNat 32 (2 ^ v)
          let ring := { d.ring with msixMask := d.ring.msixMask &&& ~~~b, msixPend := d.ring.msixPend &&& ~~~b }
          (d.ring.msixPend &&& b = 0 → exec (.vectorUnmask v) s = .next (s.after {} { d with ring := ring }))
          ∧ (d.ring.msixPend &&& b ≠ 0 → exec (.vectorUnmask v) s = .next (s.after {}
              { d with ring := { ring with msixSent := d.ring.msixSent ++ [v] } })))
      ∧ ∀ v : Nat, 32 ≤ v → exec (.vectorUnmask v) s = .next (s.after {} d))
    ∧ (d.ring.go = true → d.ring.hbStale = false → 600 ≤ d.ring.hbAge →
        exec .hbStale s = .next (s.after {}
          (raise 0x200B 0 (leBytes 4 d.ring.hbAge) e { d with ring := { d.ring with hbStale := true } })))
    ∧ (d.ring.go = false ∨ d.ring.hbStale = true ∨ d.ring.hbAge < 600 → exec .hbStale s = .next (s.after {} d))
    ∧ (∀ r : Nat, (128 ≤ r ∨ (ringAt d r).fault = true ∨ (ringAt d r).retries < 4) →
        exec (.ringFault r) s = .next (s.after {} d))
    ∧ ∀ r : Nat, r < 128 → (ringAt d r).fault = false → 4 ≤ (ringAt d r).retries →
        let x := raise 0x3006 0 [BitVec.ofNat 8 r, 1] e (setRing r { ringAt d r with fault := true } d)
        let b : BitVec 32 := BitVec.ofNat 32 (2 ^ (d.ring.errVec % 32))
        (r ≠ 1 ∧ r ≠ 2 → exec (.ringFault r) s = .next (s.after {} x))
        ∧ ((r = 1 ∨ r = 2) → d.ring.msixMask &&& b = 0 → exec (.ringFault r) s = .next (s.after {}
            { x with ring := { x.ring with msixSent := x.ring.msixSent ++ [d.ring.errVec] } }))
        ∧ ((r = 1 ∨ r = 2) → d.ring.msixMask &&& b ≠ 0 → exec (.ringFault r) s = .next (s.after {}
            { x with ring := { x.ring with msixPend := x.ring.msixPend ||| b } }))

/-- RING_GO_SET: with aligned bases the engine starts, HB_AGE counts anew and each of rings 0 to 3 takes its entry of
the ring table, empty: SIZE and the base address from it, DIDX 0, HIDX 0 for the rings that the device fills. An
unaligned base leaves RING_GO clear and sets RING_ERR (R257, R507). -/
def Sys2Proof.Machine.RingGoStartsTheFirstFourRings : Prop :=
  ∀ (h : HostView) (s : State), s.dev.alive = true → s.dev.pwr.sramClear = true →
    (s.dev.ring.go = false ∨ s.dev.ring.stopping = true) →
    let d := s.dev
    let e := envOf h s
    let aligned := d.ring.dbBase.toNat % 64 = 0 ∧ d.ring.tblBase.toNat % 64 = 0 ∧ d.ring.devBase.toNat % 64 = 0
    (¬aligned → exec (.ringGoSet h) s = .next (s.after h { d with pwr := { d.pwr with ringErr := true } }))
    ∧ (aligned → ∀ b : Nat → List Byte,
        (∀ r < 4, ringEntry r e d = some (b r) ∧ bit (fld (b r) 0xC 1) 0 = true ∧ fld (b r) 0 8 % 64 = 0
          ∧ ∃ k, 4 ≤ k ∧ k ≤ 16 ∧ fld (b r) 8 4 = 2 ^ k) →
        ∃ t, exec (.ringGoSet h) s = .next (s.after h t)
          ∧ t.ring.go = true ∧ t.ring.hbAge = 0 ∧ t.ring.hbStale = false ∧ t.pwr = d.pwr ∧ t.evt = d.evt ∧ t.cmd = d.cmd
          ∧ t.outbox = d.outbox
          ∧ (∀ r < 4, (ringAt t r).run = true ∧ (ringAt t r).fault = false ∧ (ringAt t r).base = fld (b r) 0 8
              ∧ (ringAt t r).size = fld (b r) 8 4 ∧ (ringAt t r).didx = 0
              ∧ (1 ≤ r → (ringAt t r).hidx = 0))
          ∧ ∀ r, 4 ≤ r → ringAt t r = ringAt d r)

/-- RingSwitchesActOnTheirBits and RingGoStartsTheFirstFourRings together: the statements above of these names, each
with the rules that it names. -/
def Obligations.RingSwitchesAndRingGoActOnTheirBits : Prop :=
  RingSwitchesActOnTheirBits ∧ RingGoStartsTheFirstFourRings

/-- DIDX_WRITEBACK: the index of a running ring goes to the device index table (R261), and one message of its vector
follows where the count or the frames reach their bound or an entry is urgent; it clears the counts of the ring and of
every other ring of the vector that is due and whose index the table already shows (R272; which rings one message
serves: log 117). -/
def Sys2Proof.Machine.IndexWriteBackInterruptsWhenDue : Prop :=
  ∀ (r : Nat) (s : State), s.dev.alive = true → r < 128 → s.dev.ring.go = true → s.dev.ring.busMaster = true →
    s.dev.ring.d3hot = false → (ringAt s.dev r).run = true →
    let d := s.dev
    let q := ringAt d r
    let w := { d with outbox := d.outbox ++ [(d.ring.devBase.toNat + 4 * r, leBytes 4 q.didx.toNat)] }
    let due := q.irq = true ∧ q.unsig ≠ 0 ∧ (q.unsig ≥ q.modCount ∨ q.unsigAge ≥ q.modFrames ∨ q.urgent = true)
    let vec : BitVec 32 := BitVec.ofNat 32 (2 ^ (q.vec % 32))
    let y := setRing r { q with dirty := false } w
    let served := fun (x : Device) => { x with ring := { x.ring with rings := mmap {} (fun k (z : Ring) =>
      if msiServes r q k z = true then { z with unsig := 0, unsigAge := 0, urgent := false } else z) x.ring.rings } }
    (¬due → exec (.didxWriteback r) s = .next (s.after {} y))
    ∧ (due → d.ring.msixMask &&& vec = 0 → exec (.didxWriteback r) s = .next (s.after {}
        (served { y with ring := { y.ring with msixSent := y.ring.msixSent ++ [q.vec] } })))
    ∧ (due → d.ring.msixMask &&& vec ≠ 0 → exec (.didxWriteback r) s = .next (s.after {}
        (served { y with ring := { y.ring with msixPend := y.ring.msixPend ||| vec } })))

/-- Device `d` after ring `r` took the writes `l` of one entry: the posted writes, the index, the unsignalled count. -/
def Sys2Proof.Machine.wroteAll (r : Nat) (l : List (Nat × List Byte)) (urgent : Bool) (d : Device) : Device :=
  let q := ringAt d r
  setRing r { q with didx := q.didx + 1, dirty := true, unsig := q.unsig + 1, urgent := q.urgent || urgent }
    { d with outbox := d.outbox ++ l }

/-- The same for one entry of 64 bytes `b` at the ring's DIDX. -/
def Sys2Proof.Machine.wroteEntry (r : Nat) (b : List Byte) (urgent : Bool) (d : Device) : Device :=
  wroteAll r [((ringAt d r).base + 64 * ((ringAt d r).didx.toNat % (ringAt d r).size), b)] urgent d

/-- RESULT_WRITE, EVENT_DESCRIPTOR_WRITE and TRACE_DESCRIPTOR_WRITE put one descriptor into their rings where there is
room: the oldest result block in three writes, SEQ, its body, SEQ_T (R266), its data area before it (R267); up to four
events, those that must come first at the front, then EVENTS_LOST with its count where any was lost; up to four trace
records. -/
def Sys2Proof.Machine.ResultEventAndTraceDescriptorsAreWritten : Prop :=
  ∀ s : State, s.dev.alive = true →
    let d := s.dev
    let e := envOf {} s
    (∀ (b : ResultBlk) (rest : List ResultBlk), d.cmd.results = b :: rest → ringLive d 1 = true → 0 < roomOf (ringAt d 1) →
        let q := ringAt d 1
        let seq := leBytes 4 (q.didx + 1).toNat
        let at_ := q.base + 64 * (q.didx.toNat % q.size)
        let block := [(at_, seq), (at_ + 4, resultBody b e), (at_ + 0x3C, seq)]
        let x := { d with cmd := { d.cmd with results := rest } }
        (b.area = none → exec .resultWrite s = .next (s.after {} (fenceCheck e (wroteAll 1 block b.notify x))))
        ∧ ∀ a : Area, b.area = some a →
          let area := [(a.addr, seq),
            (a.addr + 4, leBytes 2 b.opcode ++ zeros 2 ++ leBytes 4 a.payload.length ++ leBytes 4 a.fn.toNat ++ a.payload),
            (a.addr + a.len - 8, seq ++ zeros 4)]
          exec .resultWrite s = .next (s.after {} (fenceCheck e (wroteAll 1 (area ++ block) b.notify x))))
    ∧ (d.cmd.results = [] ∨ ringLive d 1 = false ∨ roomOf (ringAt d 1) = 0 → exec .resultWrite s = .next (s.after {} d))
    ∧ (ringLive d 2 = true → 0 < roomOf (ringAt d 2) → d.evt.first.length < 4 →
        let f := d.evt.first
        let lost := eventOf 0x100D 0 (leBytes 4 d.evt.lostNow) e d
        let put := fun (l : List Event) (n : Nat) => s.after {}
          (wroteEntry 2 (sub (l.flatMap eventBytes) 0 64) (l.any (fun v => decide (v.code / 0x1000 ≥ 3)))
            { d with evt := { d.evt with first := [], lostNow := 0, store := d.evt.store.drop n } })
        (d.evt.lostNow = 0 → f ++ d.evt.store ≠ [] →
          exec .eventDescriptorWrite s = .next (put (f ++ d.evt.store.take (4 - f.length)) (4 - f.length)))
        ∧ (d.evt.lostNow ≠ 0 →
          exec .eventDescriptorWrite s = .next (put (f ++ lost :: d.evt.store.take (3 - f.length)) (3 - f.length))))
    ∧ (ringLive d 2 = false ∨ roomOf (ringAt d 2) = 0 → exec .eventDescriptorWrite s = .next (s.after {} d))
    ∧ (ringLive d 3 = true → 0 < roomOf (ringAt d 3) → d.disp.trace.buf ≠ [] →
        exec .traceDescriptorWrite s = .next (s.after {}
          (wroteEntry 3 (sub ((d.disp.trace.buf.take 4).flatMap traceBytes) 0 64) false
            { d with disp := { d.disp with trace := { d.disp.trace with buf := d.disp.trace.buf.drop 4 } } })))
    ∧ (ringLive d 3 = false ∨ roomOf (ringAt d 3) = 0 ∨ d.disp.trace.buf = [] →
        exec .traceDescriptorWrite s = .next (s.after {} d))

/-- TELEMETRY_RECORD: a record without room is skipped and counted; else its descriptors go to the ring one after the
other, each with its type, its index and the SEQ of its HEAD. The meters restart either way (R178, R275, R276). -/
def Sys2Proof.Machine.TelemetryRecordIsWholeOrSkipped : Prop :=
  ∀ s : State, s.dev.alive = true →
    let d := s.dev
    let e := envOf {} s
    (d.ring.telDue = false → exec .telemetryRecord s = .next (s.after {} d))
    ∧ (d.ring.telDue = true → ∃ t, exec .telemetryRecord s = .next (s.after {} t)
      ∧ t.ring.telDue = false ∧ t.ring.telLast = some s.fc.fn ∧ t.evt = d.evt ∧ t.cmd = d.cmd ∧ t.geo = d.geo
      ∧ (∀ n, (outAt t n).peak = 0 ∧ (outAt t n).sumSq = 0 ∧ (outAt t n).samples = 0 ∧ (outAt t n).clip = 0
          ∧ (outAt t n).minGain = fOne)
      ∧ (∀ n, (pchAt t n).sumV = 0 ∧ (pchAt t n).sumI = 0 ∧ (pchAt t n).pkV = 0 ∧ (pchAt t n).pkI = 0)
      ∧ (ringLive d 5 = false ∨ roomOf (ringAt d 5) < telemLen d →
          t.ring.telSkipped = add32 d.ring.telSkipped 1 ∧ t.outbox = d.outbox ∧ ringAt t 5 = ringAt d 5)
      ∧ (ringLive d 5 = true → telemLen d ≤ roomOf (ringAt d 5) →
          let q := ringAt d 5
          let parts := telParts e d
          t.ring.telSkipped = 0 ∧ (ringAt t 5).didx = q.didx + BitVec.ofNat 32 parts.length
          ∧ t.outbox = d.outbox ++ parts.zipIdx.map (fun p =>
              (q.base + 64 * ((q.didx + BitVec.ofNat 32 p.2).toNat % q.size),
               sub (leBytes 1 p.1.1 ++ [0] ++ leBytes 2 p.1.2.1 ++ leBytes 4 (q.didx + 1).toNat ++ p.1.2.2) 0 64))))

/-- IndexWriteBackInterruptsWhenDue, ResultEventAndTraceDescriptorsAreWritten and TelemetryRecordIsWholeOrSkipped
together: the statements above of these names, each with the rules that it names. -/
def Obligations.RingWritesFollowTheirRules : Prop :=
  IndexWriteBackInterruptsWhenDue ∧ ResultEventAndTraceDescriptorsAreWritten ∧ TelemetryRecordIsWholeOrSkipped

/-- What the ring engine reads after a doorbell fetch: covered commands, metadata records, audio buffers, and the receive
queues that waited for buffers. -/
def Sys2Proof.Machine.readEntries (e : Env) (d : Device) : Device :=
  let d := cmdRead e 256 d
  let d := metaRead e (2 * nObj d) d
  nrxAfterFetch e (forAll (List.range 16) (fun h d => ainRead h e (covered (ringAt d (16 + h))) d) d)

/-- DOORBELL_FETCH_DONE: a fetch that succeeds brings the indices and the heartbeat (R259, R260); one that fails counts
DB_MISS, raises DB_MISS and is a tick without heartbeat (R22). What the indices cover is read either way. A HIDX that
breaks its ring's invariant is ignored, counted and reported (R254). -/
def Obligations.DoorbellFetchBringsIndicesAndHeartbeat : Prop :=
  (∀ (ok : Bool) (h : HostView) (s : State), s.dev.alive = true → s.dev.ring.fetching = true → s.dev.ring.go = true →
    let e := envOf h s
    let d := { s.dev with ring := { s.dev.ring with fetching := false } }
    let older := d.ring.hb
    ((ok = false ∨ fetched e d = none) →
      exec (.doorbellFetchDone ok h) s = .next (s.after h (readEntries e
        (raise 0x2003 0 (leBytes 4 (inc32 d.ring.dbMiss)) e
          { d with ring := { d.ring with dbMiss := inc32 d.ring.dbMiss, hbAge := add32 d.ring.hbAge 1 } }))))
    ∧ (ok = true → ∀ (hb : BitVec 32) (idx : List (Nat × BitVec 32)), fetched e d = some (hb, idx) →
        let take := fun (d : Device) => readEntries e (forAll idx (fun p d => takeHidx p.1 p.2 e d) d)
        let beat := { d with ring := { d.ring with hb := some hb, hbAge := 0, hbStale := false } }
        ((older = none ∨ older = some hb) → exec (.doorbellFetchDone ok h) s = .next (s.after h
          (take { d with ring := { d.ring with hb := some hb, hbAge := add32 d.ring.hbAge 1 } })))
        ∧ (older ≠ none → older ≠ some hb → d.ring.hbStale = false →
          exec (.doorbellFetchDone ok h) s = .next (s.after h (take beat)))
        ∧ (older ≠ none → older ≠ some hb → d.ring.hbStale = true →
          exec (.doorbellFetchDone ok h) s = .next (s.after h (take (raise 0x100A 0 [] e beat))))))
  ∧ ∀ (r : Nat) (v : BitVec 32) (e : Env) (d : Device),
      let q := ringAt d r
      let held := if r = 1 ∨ r = 2 ∨ r = 3 ∨ r = 5 then (q.didx - v).toNat else (v - q.didx).toNat
      (q.run = false ∨ held ≤ q.size → takeHidx r v e d = setRing r { q with hidx := v } d)
      ∧ (q.run = true → q.size < held → takeHidx r v e d =
          raise 0x3006 0 [BitVec.ofNat 8 r, 0] e (setRing r { q with idxBad := inc32 q.idxBad } d))

/-! ## Host commands (chapters 01, 08, 09) -/

/-- The row of the table of an opcode of R280. -/
def Sys2Proof.Machine.hostInstr (op : Nat) (c : CmdDesc) (h : HostView) : Option Instr :=
  match op with
  | 0x0001 => some (.nop c h)
  | 0x0002 => some (.fence c h)
  | 0x0003 => some (.renderStart c h)
  | 0x0004 => some (.renderStop c h)
  | 0x0005 => some (.funcReset c h)
  | 0x0006 => some (.coreOffline c h)
  | 0x0007 => some (.coreOnline c h)
  | 0x0008 => some (.ringSetup c h)
  | 0x0009 => some (.traceCtl c h)
  | 0x000A => some (.query c h)
  | 0x0100 => some (.objMotion c h)
  | 0x0101 => some (.spkCommit c h)
  | 0x0102 => some (.triCommit c h)
  | 0x0103 => some (.dirtabLoad c h)
  | 0x0104 => some (.directLoad c h)
  | 0x0200 => some (.paramWrite c h)
  | 0x0201 => some (.groupSet c h)
  | 0x0202 => some (.coefLoad c h)
  | 0x0300 => some (.route c h)
  | 0x0301 => some (.streamRx c h)
  | 0x0302 => some (.streamTx c h)
  | 0x0303 => some (.sinkSet c h)
  | 0x0304 => some (.decRun c h)
  | 0x0400 => some (.pchStart c h)
  | 0x0401 => some (.pchStop c h)
  | 0x0402 => some (.pchDiag c h)
  | 0x0403 => some (.pchClear c h)
  | 0x0404 => some (.limitCommit c h)
  | 0x0500 => some (.servoOffset c h)
  | 0x0501 => some (.epochSet c h)
  | 0x0502 => some (.clockRef c h)
  | 0x0503 => some (.pairJoin c h)
  | 0x0504 => some (.pairRejoin c h)
  | 0x0505 => some (.pairWithdraw c h)
  | 0x0506 => some (.pairHandover c h)
  | _ => none

/-- The device after the ring engine has taken one entry of the CMD ring. -/
def Sys2Proof.Machine.readOne (d : Device) : Device :=
  let q := ringAt d 0
  setRing 0 { q with didx := q.didx + 1, dirty := true, unsig := q.unsig + 1 }
    { d with cmd := { d.cmd with readNow := d.cmd.readNow + 1 } }

/-- Fewer than 4,096 accepted commands wait for their AF (R30), and the RESULT ring runs with room for the blocks on
chip and one more (R264). -/
def Sys2Proof.Machine.HasRoom (d : Device) : Prop :=
  (d.cmd.queue.filter (fun p => !p.applied)).length < 4096 ∧ ringLive d 1 = true
    ∧ d.cmd.results.length < roomOf (ringAt d 1)

/-- The ring engine reads the command and the device accepts it as `p`: no refusal of R229, R263, R280 to R293, R486, R545
applies. -/
def Sys2Proof.Machine.Accepts (op : Nat) (c : CmdDesc) (h : HostView) (s : State) (p : Pend) : Prop :=
  s.dev.alive = true ∧ ringTakes s.dev = true ∧ HasRoom s.dev ∧ s.dev.cmd.held = false
    ∧ consider op c (ringAt s.dev 0).didx false none (envOf h s) (readOne s.dev) = ((0, []), some p)

/-- The device with `p` in its queue and the ACCEPT block of `p` on its way. -/
def Sys2Proof.Machine.entered (p : Pend) (d : Device) : Device :=
  { d with cmd := { d.cmd with
    results := d.cmd.results ++ [{ done := false, marks := marksOf p false, status := 0, opcode := p.opcode
                                   func := p.d.func, tag := p.d.tag, ridx := p.ridx, af := p.af }]
    queue := d.cmd.queue ++ [p], nextUid := d.cmd.nextUid + 1
    lateCnt := if p.late then inc32 d.cmd.lateCnt else d.cmd.lateCnt
    deferCnt := if p.deferred then inc32 d.cmd.deferCnt else d.cmd.deferCnt } }

/-- Every host command of R280, once accepted, waits in the queue for its decided AF, with the command's index, and its
ACCEPT block is posted (R30, R264, R265). On a hub without a partner to mirror to, and for a command that is not
mirrored, nothing else changes but for what six commands do at once: FENCE holds the ring (R283), CORE_ONLINE makes its
core JOINING (R314), a COEF_LOAD of a FIR set gives the cores the work of its spectra (R306), LIMIT_COMMIT closes the
unlock (R506); RENDER_START makes a paired hub active (R223); PAIR_HANDOVER is announced to the peer (R248). -/
def Obligations.AcceptedHostCommandWaitsForItsFrame : Prop :=
  ∀ (op : Nat) (c : CmdDesc) (h : HostView) (s : State) (p : Pend) (i : Instr),
    hostInstr op c h = some i → Accepts op c h s p →
    let e := envOf h s
    let d := readOne s.dev
    let x := entered p d
    let lone := paired s.dev = false ∨ isActive s.dev.pair = false ∨ s.dev.pair.up = false ∨ pairCol op c.func.toNat ≠ .m
    let fir := op = 0x0202 ∧ argN c 0x20 1 = 3
    (p.opcode = op ∧ p.d = c ∧ p.ridx = (ringAt s.dev 0).didx ∧ p.applied = false ∧ p.fromMirror = false ∧ p.silent = false
      ∧ p.uid = s.dev.cmd.nextUid)
    ∧ (lone → op ≠ 0x0002 → op ≠ 0x0007 → op ≠ 0x0404 → op ≠ 0x0003 → op ≠ 0x0506 → ¬fir →
        exec i s = .next (s.after h x))
    ∧ (lone → fir → exec i s = .next (s.after h (enlistJob (.spectra p.uid) e x)))
    ∧ (op = 0x0002 → exec i s = .next (s.after h { x with cmd := { x.cmd with fence := some p.uid } }))
    ∧ (op = 0x0007 → exec i s = .next (s.after h (setCoreSt (argN c 0x20 1) .joining 0 e x)))
    ∧ (op = 0x0404 →
        exec i s = .next (s.after h { x with jrn := { x.jrn with unlocked := false, openFor := 0, armed := false } }))
    ∧ (op = 0x0003 → paired s.dev = false → exec i s = .next (s.after h x))
    ∧ (op = 0x0003 → paired s.dev = true → ∃ t, exec i s = .next (s.after h t) ∧ t.pair.st = .active
        ∧ t.pair.epoch = s.dev.pair.peerEpoch + 1)
    ∧ (op = 0x0506 → exec i s = .next (s.after h (mirror p e (sendDraw 8 (leBytes 4 p.af.toNat) e x))))

/-- An active hub of a pair whose drawbar is up sends each accepted mirrored command to its peer, with the next MSEQ, its
decided AF, its RIDX and its descriptor, and keeps it until it is acknowledged (R230, R249). -/
def Sys2Proof.Machine.AcceptedCommandIsMirrored : Prop :=
  ∀ (op : Nat) (c : CmdDesc) (h : HostView) (s : State) (p : Pend) (i : Instr),
    hostInstr op c h = some i → Accepts op c h s p → paired s.dev = true → isActive s.dev.pair = true →
    s.dev.pair.up = true → pairCol op c.func.toNat = .m → op ≠ 0x0003 → op ≠ 0x0506 →
    let m := s.dev.pair.mseq + 1
    let body := leBytes 4 m.toNat ++ leBytes 4 p.af.toNat ++ leBytes 4 p.ridx.toNat
      ++ leBytes 1 (ofBits [p.late, p.deferred]) ++ zeros 3 ++ descBytes op c
    ∃ t, exec i s = .next (s.after h t) ∧ t.pair.mseq = m ∧ t.pair.unacked = s.dev.pair.unacked ++ [(m, body)]
      ∧ t.pair.sent = s.dev.pair.sent ++ [{ typ := 2, fn := s.fc.fn, seq := s.dev.pair.seq, payload := body }]
      ∧ t.pair.seq = s.dev.pair.seq + 1 ∧ t.pair.st = s.dev.pair.st ∧ t.cmd.results = (entered p (readOne s.dev)).cmd.results

/-- A refused command posts one DONE block with the refusal's STATUS and DETAIL and the frame of refusal as its AF, and
changes nothing else (R264, R265), but that a LIMIT_COMMIT closes the unlock (R506). -/
def Sys2Proof.Machine.RefusedHostCommandPostsOneDone : Prop :=
  ∀ (op : Nat) (c : CmdDesc) (h : HostView) (s : State) (r : Nat × List Nat) (i : Instr),
    hostInstr op c h = some i → s.dev.alive = true → ringTakes s.dev = true → HasRoom s.dev →
    s.dev.cmd.held = false →
    consider op c (ringAt s.dev 0).didx false none (envOf h s) (readOne s.dev) = (r, none) →
    let d := readOne s.dev
    let x := { d with cmd := { d.cmd with results := d.cmd.results ++
      [{ done := true, marks := 0, status := r.1, opcode := op, func := c.func, tag := c.tag, ridx := (ringAt s.dev 0).didx
         af := s.fc.fn, detail := r.2, notify := c.cflags.getLsbD 1 }] } }
    (op ≠ 0x0404 → exec i s = .next (s.after h x))
    ∧ (op = 0x0404 →
        exec i s = .next (s.after h { x with jrn := { x.jrn with unlocked := false, openFor := 0, armed := false } }))

/-- The command stays in the ring, unread, while a FENCE is open, 256 commands have been read in the frame, or the ring
does not run; and while it finds no room (4,096 commands wait for their AF, or the RESULT ring does not run or is full),
of which the device says so once, and once when it resumes with the first command that finds room (R30, R264, R283). -/
def Sys2Proof.Machine.HostCommandWaitsInItsRing : Prop :=
  ∀ (op : Nat) (c : CmdDesc) (h : HostView) (s : State) (i : Instr), hostInstr op c h = some i → s.dev.alive = true →
    let d := s.dev
    let e := envOf h s
    ((d.cmd.fence ≠ none ∨ 256 ≤ d.cmd.readNow ∨ ringLive d 0 = false) → exec i s = .next (s.after h d))
    ∧ (ringTakes d = true → ¬HasRoom d → d.cmd.held = false →
      exec i s = .next (s.after h (raise 0x1001 0 [0] e { d with cmd := { d.cmd with held := true } })))
    ∧ (ringTakes d = true → ¬HasRoom d → d.cmd.held = true → exec i s = .next (s.after h d))
    ∧ (ringTakes d = true → HasRoom d → d.cmd.held = true →
      exec i s = .next (s.after h
        (takeCmd op c e (raise 0x1001 0 [1] e { d with cmd := { d.cmd with held := false } }))))

/-- AcceptedCommandIsMirrored, RefusedHostCommandPostsOneDone and HostCommandWaitsInItsRing together: the statements
above of these names, each with the rules that it names. -/
def Obligations.HostCommandsAreMirroredRefusedOrWait : Prop :=
  AcceptedCommandIsMirrored ∧ RefusedHostCommandPostsOneDone ∧ HostCommandWaitsInItsRing

/-- The decided AF of a command that swaps no bank: the earliest frame, not before tick + 2, not before the requested AF
unless AF is to be taken as soon as possible or has passed, not before the staging bound, that fewer than 256 commands
hold (and that no other command of its kind holds where a frame takes one). LATE where the requested AF is earlier than
tick + 2; DEFERRED where another condition moved it (R28, R38, R39). -/
def Obligations.DecidedFrameIsTheEarliest : Prop :=
  ∀ (d : Device) (e : Env) (c : CmdDesc) (op : Nat), op < 0x0500 →
    let w := stageWork d c op
    let asap := c.cflags.getLsbD 0 = true
    let late := ¬asap ∧ earlier c.af (e.fn + 2) = true
    let req := if c.cflags.getLsbD 0 || earlier c.af (e.fn + 2) then 2 else (c.af - (e.fn + 2)).toNat + 2
    let least := max req (floorOf d e c op w)
    (swapMembers (groupsAt d (e.fn + BitVec.ofNat 32 least)) c op).1 = [] →
    let pl := plan d e c op none
    ∃ o : Nat, pl.af = e.fn + BitVec.ofNat 32 o ∧ least ≤ o ∧ 2 ≤ o
      ∧ (w ≠ 0 → 2 + cdiv w (budgetB d.img.budget) ≤ o)
      ∧ (∀ j, least ≤ j → j < o → frameFree d (onePerFrame d op c) (e.fn + BitVec.ofNat 32 j) = false)
      ∧ (d.cmd.queue.length + (d.cmd.queue.map (fun p => p.members.length)).sum < 2 ^ 32 →
          frameFree d (onePerFrame d op c) pl.af = true)
      ∧ (pl.late = true ↔ late) ∧ (pl.deferred = true ↔ o ≠ req) ∧ pl.members = []

/-- Commands of one frame are applied in the order of their acceptance, each to what the ones before it left (R29). -/
def Obligations.CommandsOfOneFrameApplyInOrder : Prop :=
  ∀ (p q : Pend) (e : Env) (d : Device), d.cmd.queue = [p, q] → p.uid ≠ q.uid → isDue p e.fn = true → isDue q e.fn = true →
    let x := applyDue p e d
    (x.cmd.queue.find? (fun r => r.uid = q.uid) = some q → applyFrame e d = applyDue q e x)
    ∧ (x.cmd.queue.find? (fun r => r.uid = q.uid) = none → applyFrame e d = x)

/-- A FENCE completes once it has been applied and every command accepted before it has left the queue; until then it
holds the ring, and no command is read in the frame in which it completes (R283). -/
def Obligations.FenceCompletesAfterEarlierCommands : Prop :=
  ∀ (p : Pend) (before rest : List Pend) (e : Env) (d : Device), d.cmd.queue = before ++ p :: rest →
    d.cmd.fence = some p.uid → (∀ q ∈ before, q.uid ≠ p.uid) →
    (p.applied = false ∨ before ≠ [] → fenceCheck e d = d ∧ ringTakes d = false)
    ∧ (p.applied = true → before = [] → p.silent = false →
        let t := fenceCheck e d
        t.cmd.fence = none ∧ t.cmd.readNow = 256 ∧ ringTakes t = false
        ∧ ∃ b, t.cmd.results = d.cmd.results ++ [b] ∧ b.done = true ∧ b.status = p.status ∧ b.opcode = p.opcode
            ∧ b.ridx = p.ridx ∧ b.af = p.af ∧ b.tag = p.d.tag)
    ∧ ∀ (ridx : BitVec 32) (due : Option (List Nat)), p.opcode = 0x0002 →
        applyCmd { p with ridx := ridx } due e d = { dev := d, status := none }

/-! ## What host commands do at their decided AF: `applyCmd`, with FN = AF -/

/-- The system commands at their AF. NOP and QUERY change nothing. RENDER_STOP fades output frame AF and completes every
later command unapplied; it is refused while nothing renders and while a power channel is on. RENDER_START starts at S =
AF, with T_CUR at T_SET, and is refused while rendering runs; where no bridge was audible it raises no event. RING_SETUP
takes the ring's entry as it stands, or stops the ring; a failed read refuses with DMA_FAIL. TRACE_CTL turns the trace
on or off, or flushes what is buffered. CORE_OFFLINE of a SPARE core needs no copy; CORE_ONLINE of a JOINING core makes
it SPARE with its scratch cleared. FUNC_RESET of the geometry engine and of a rail group. -/
def Obligations.SystemCommandsActAtTheirFrame : Prop :=
  ∀ (p : Pend) (due : Option (List Nat)) (e : Env) (d : Device),
    let c := p.d
    let f := c.func.toNat
    let r := argN c 0x20 1
    (p.opcode = 0x0001 → applyCmd p due e d = { dev := d })
    ∧ (p.opcode = 0x000A → applyCmd p due e d = { dev := d })
    ∧ (p.opcode = 0x0003 → d.pwr.rendering = true → applyCmd p due e d = { dev := d, status := some 0x010A })
    ∧ (p.opcode = 0x0003 → d.pwr.rendering = false → p.fromMirror = false →
        let t := (applyCmd p due e d).dev
        (applyCmd p due e d).status = some 0 ∧ t.pwr.rendering = true ∧ t.pwr.startFn = e.fn ∧ t.pwr.stopAt = none
        ∧ t.geo.temp.tCur = d.geo.temp.tSet ∧ t.xp.rampFrom = some e.fn
        ∧ t.cmd = d.cmd ∧ t.clk = d.clk
        ∧ ((∀ r < 8, (ainMedAt d r).bridge.audible = false) → t.evt = d.evt))
    ∧ (p.opcode = 0x0003 → d.pwr.rendering = false → p.fromMirror = true →
        let t := (applyCmd p due e d).dev
        (applyCmd p due e d).status = some 0 ∧ t.pwr.rendering = true ∧ t.pwr.startFn = e.fn
        ∧ t.pair.st = .inSync ∧ t.pair.epoch = d.pair.peerEpoch - 1)
    ∧ (p.opcode = 0x0004 → (d.pwr.rendering = false ∨ d.pwr.stopAt ≠ none) →
        applyCmd p due e d = { dev := d, status := some 0x010B })
    ∧ (p.opcode = 0x0004 → d.pwr.rendering = true → d.pwr.stopAt = none → (List.range 16).any (pchActive d) = true →
        applyCmd p due e d = { dev := d, status := some 0x0118 })
    ∧ (p.opcode = 0x0004 → d.pwr.rendering = true → d.pwr.stopAt = none → (List.range 16).any (pchActive d) = false →
        let open_ := d.cmd.queue.filter (fun q => later q.af e.fn || q.members.any (fun m => !m.applied && later m.af e.fn))
        let t := dropAll 5 open_ e { d with pwr := { d.pwr with stopAt := some e.fn } }
        applyCmd p due e d = { dev := t, status := none })
    ∧ (p.opcode = 0x0008 → ringEntry r e d = none → applyCmd p due e d = { dev := d, status := some 0x0106 })
    ∧ (p.opcode = 0x0008 → ∀ b, ringEntry r e d = some b → bit (fld b 0xC 1) 0 = true → ringBad d r b = true →
        applyCmd p due e d = { dev := d, status := some 0x0115 })
    ∧ (p.opcode = 0x0008 → ∀ b, ringEntry r e d = some b → bit (fld b 0xC 1) 0 = true → ringBad d r b = false →
        let q := ringAt (applyCmd p due e d).dev r
        (applyCmd p due e d).status = some 0 ∧ q.run = true ∧ q.fault = false ∧ q.didx = 0 ∧ q.base = fld b 0 8
        ∧ q.size = fld b 8 4 ∧ q.irq = bit (fld b 0xC 1) 1 ∧ q.modCount = max 1 (fld b 0xE 2)
        ∧ (applyCmd p due e d).clamped = if ringClamps r b then 1 else 0)
    ∧ (p.opcode = 0x0008 → ∀ b, ringEntry r e d = some b → bit (fld b 0xC 1) 0 = false →
        (applyCmd p due e d).status = some 0 ∧ (ringAt (applyCmd p due e d).dev r).run = false)
    ∧ (p.opcode = 0x0009 → r = 0 →
        applyCmd p due e d = { dev := { d with disp := { d.disp with trace := { d.disp.trace with on := false } } } })
    ∧ (p.opcode = 0x0009 → r = 1 → applyCmd p due e d =
        { dev := { d with disp := { d.disp with trace := { d.disp.trace with
            on := true, sel := BitVec.ofNat 8 (argN c 0x21 1), clMask := BitVec.ofNat 8 (argN c 0x22 1), rseq := 0
            left := if argN c 0x24 4 = 0 then none else some (argN c 0x24 4) } } } })
    ∧ (p.opcode = 0x0009 → r = 2 → applyCmd p due e d = { dev := traceFlush d })
    ∧ (p.opcode = 0x0006 → (cslotAt d r).st = .spare → applyCmd p due e d = { dev := setCoreSt r .offline 0 e d })
    ∧ (p.opcode = 0x0006 → ((cslotAt d r).st = .leaving ∨ (cslotAt d r).st = .offline ∨ (cslotAt d r).st = .joining) →
        applyCmd p due e d = { dev := d, status := some 0x0103 })
    ∧ (p.opcode = 0x0007 → (cslotAt d r).st = .joining → d.disp.orphans = [] →
        applyCmd p due e d =
          { dev := setCoreSt r .spare 2 e (modCore r (fun k => { k with scratch := [], bad := [], soft := [] }) d)
            detail := p.detail })
    ∧ (p.opcode = 0x0007 → (cslotAt d r).st ≠ .joining → applyCmd p due e d = { dev := d, status := some 0x0103 })
    ∧ (p.opcode = 0x0005 → f = 0x70 →
        let t := (applyCmd p due e d).dev
        (applyCmd p due e d).status = some 0 ∧ t.geo.temp.tCur = d.geo.temp.tSet ∧ t.geo.temp.left = 0
        ∧ (∀ o, (objAt t o).vbapWin = [none, none, none, none, none] ∧ (objAt t o).geoFlags = 0)
        ∧ t.cmd = d.cmd ∧ t.pwr = d.pwr)
    ∧ (p.opcode = 0x0005 → ∀ g < 4, f = 0x75 + g → applyCmd p due e d = { dev := railReset g d })

/-- The commands of objects and tables. OBJ_MOTION with its fields in the descriptor changes the fields that SEL names
and no other, a change of law sets JUMP; an object whose motion comes from another source ignores it, counts it and
answers WRONG_SOURCE. SPK_COMMIT, TRI_COMMIT, DIRTAB_LOAD and DIRECT_LOAD change their entries and no other, or nothing
where an entry breaks a rule, which TABLE_BAD names: for TRI_COMMIT an entry of the whole staged copy, the first in
table order (R51 to R53, R61 to R66, R81, R286, R295). -/
def Obligations.ObjectAndTableCommandsActAtTheirFrame : Prop :=
  ∀ (p : Pend) (due : Option (List Nat)) (e : Env) (d : Device),
    let c := p.d
    let b := p.operand.getD []
    let first := argN c 0x20 2
    let n := argN c 0x22 2
    (p.opcode = 0x0100 → c.addr = 0 → (objAt d first).params.mdSrc ≠ .command →
      applyCmd p due e d = { dev := modObj first (fun x => { x with ignored := inc32 x.ignored }) d, status := some 0x010E })
    ∧ (p.opcode = 0x0100 → c.addr = 0 → (objAt d first).params.mdSrc = .command →
        let sel := argN c 0x22 1
        let old := (objAt d first).motion
        let g := gainHeld (f36At c.args 0x18)
        ∀ l : Law, (bit sel 0 = true → lawOf (argN c 0x23 1) = some l ∧ lawAllowed d first l = true) →
          (bit sel 0 = false → l = old.law) → (bit sel 4 = true → f36Ok c.args 0x18 = true) →
          let m : Motion :=
            { law := l
              mute := if bit sel 1 then bit (argN c 0x24 1) 0 else old.mute
              jump := decide (l ≠ old.law) || (if bit sel 1 then bit (argN c 0x24 1) 1 else old.jump)
              x := if bit sel 2 then sfld c.args 5 3 else old.x
              y := if bit sel 2 then sfld c.args 8 3 else old.y
              z := if bit sel 2 then sfld c.args 0xB 3 else old.z
              size := if bit sel 3 then fld c.args 0xE 3 else old.size
              gain := if bit sel 4 then g.1 else old.gain }
          applyCmd p due e d = { dev := modObj first (fun x =>
            { x with motion := m, recClamp := x.recClamp || (bit sel 4 && g.2) }) d, detail := [0] })
    ∧ (p.opcode = 0x0101 → ((entries 64 n b).map spkRule).all (· = 0) = true →
        let t := (applyCmd p due e d).dev
        (applyCmd p due e d).status = some 0
        ∧ (∀ i < n, mget {} t.geo.spk (first + i) = spkEntry (sub b (64 * i) 64))
        ∧ (∀ i, (i < first ∨ first + n ≤ i) → mget {} t.geo.spk i = mget {} d.geo.spk i)
        ∧ t = { d with
            geo := { d.geo with spk := t.geo.spk }
            img := { d.img with
              ssLow := 0x100000 - builtinArea (cfg d) (t.geo.spk.any (fun q => q.2.laws.getLsbD 3)) } })
    ∧ (∀ i k, p.opcode = 0x0101 → firstRule first ((entries 64 n b).map spkRule) = some (i, k) →
        applyCmd p due e d = { dev := d, status := some 0x0112, detail := [i, k] })
    ∧ (((entries 96 n b).map (triRule d)).all (· = 0) = true →
        (∀ q ∈ d.geo.tri, (q.1 < first ∨ first + n ≤ q.1) → triCorners d q.2 = 0) → triStaged first n b d = none)
    ∧ (∀ i k, triStaged first n b d = some (i, k) → k ≠ 0
        ∧ (first ≤ i → i < first + n → k = triRule d (sub b (96 * (i - first)) 96))
        ∧ ((i < first ∨ first + n ≤ i) → ∃ t, (i, t) ∈ d.geo.tri ∧ k = triCorners d t)
        ∧ ∀ j < n, triRule d (sub b (96 * j) 96) ≠ 0 → i ≤ first + j)
    ∧ (p.opcode = 0x0102 → triStaged first n b d = none →
        let t := (applyCmd p due e d).dev
        (applyCmd p due e d).status = some 0
        ∧ (∀ i < n, mget {} t.geo.tri (first + i) = triEntry (sub b (96 * i) 96))
        ∧ (∀ i, (i < first ∨ first + n ≤ i) → mget {} t.geo.tri i = mget {} d.geo.tri i)
        ∧ t = { d with geo := { d.geo with tri := t.geo.tri } })
    ∧ (∀ i k, p.opcode = 0x0102 → triStaged first n b d = some (i, k) →
        applyCmd p due e d = { dev := d, status := some 0x0112, detail := [i, k] })
    ∧ (p.opcode = 0x0103 → ((entries 8 4096 b).map gainRule).all (· = 0) = true →
        let col := argN c 0x20 1
        let t := (applyCmd p due e d).dev
        col < 64 → (applyCmd p due e d).status = some 0
        ∧ (∀ i < 4096, mget 0 t.geo.dirtab (64 * i + col) = f36At (sub b (8 * i) 8) 0)
        ∧ (∀ k, k % 64 ≠ col → mget 0 t.geo.dirtab k = mget 0 d.geo.dirtab k)
        ∧ t = { d with geo := { d.geo with dirtab := t.geo.dirtab } })
    ∧ (∀ i k, p.opcode = 0x0103 → firstRule 0 ((entries 8 4096 b).map gainRule) = some (i, k) →
        applyCmd p due e d = { dev := d, status := some 0x0112, detail := [i, k] })
    ∧ (p.opcode = 0x0104 → ((entries 16 (nOut d) b).map gainRule).all (· = 0) = true →
        let t := (applyCmd p due e d).dev
        nOut d ≤ 512 → (applyCmd p due e d).status = some 0
        ∧ (∀ i < nOut d, mget (0, 0) t.geo.direct (512 * first + i)
            = (f36At (sub b (16 * i) 16) 0, fld (sub b (16 * i) 16) 8 4))
        ∧ (∀ k, k / 512 ≠ first → mget (0, 0) t.geo.direct k = mget (0, 0) d.geo.direct k)
        ∧ t = { d with geo := { d.geo with direct := t.geo.direct }, dram := t.dram })
    ∧ (∀ i k, p.opcode = 0x0104 → firstRule 0 ((entries 16 (nOut d) b).map gainRule) = some (i, k) →
        applyCmd p due e d = { dev := d, status := some 0x0112, detail := [i, k] })

/-- PARAM_WRITE, GROUP_SET and COEF_LOAD at their AF. A refused write changes nothing. GAIN_RAMP of one output takes its
value, or the limit of 1 and 600 that it passes; MUTE takes 0 and 1 and refuses anything else; an object's MD_SRC drops
the records that wait from the old source. GROUP_SET sets, adds to or takes from a group's members. A coefficient load
of block 1 swaps its output's banks, and notes the swap; one whose set broke a rule as it arrived changes nothing and
answers COEF_BAD with its item and rule (R27, R52, R151, R154, R161, R172, R174). -/
def Obligations.ParameterCommandsActAtTheirFrame : Prop :=
  ∀ (p : Pend) (e : Env) (d : Device),
    let c := p.d
    let v := sext 64 (argN c 0x28 8)
    let idx := argN c 0x24 2
    let res := applyCmd p none e d
    (p.opcode = 0x0200 → ∀ k, res.status = some k → k ≠ 0 → res.dev = d)
    ∧ (p.opcode = 0x0200 → argN c 0x20 1 = 2 → argN c 0x21 1 = 3 → argN c 0x22 1 = 0 → argN c 0x23 1 = 0 →
        let set := fun (x : Nat) => modOut idx (fun o => { o with app := { o.app with gainRamp := x } }) d
        (1 ≤ v → v ≤ 600 → res = { dev := set v.toNat })
        ∧ (v < 1 → res = { dev := set 1, clamped := 1 })
        ∧ (600 < v → res = { dev := set 600, clamped := 1 }))
    ∧ (p.opcode = 0x0200 → argN c 0x20 1 = 2 → argN c 0x21 1 = 2 → argN c 0x22 1 = 0 → argN c 0x23 1 = 0 →
        ((v = 0 ∨ v = 1) → res = { dev := modOut idx (fun o => { o with app := { o.app with mute := decide (v = 1) } }) d })
        ∧ ((v < 0 ∨ 1 < v) → res = { dev := d, status := some 0x0103 }))
    ∧ (p.opcode = 0x0200 → argN c 0x20 1 = 1 → argN c 0x21 1 = 0 → argN c 0x22 1 = 0 → argN c 0x23 1 = 0 →
        (objAt d idx).params.mdSrc ≠ .stream → v = 1 →
        res = { dev := modObj idx (fun x => { x with params := { x.params with mdSrc := .stream }, pend := [] }) d })
    ∧ (p.opcode = 0x0201 →
        let g := argN c 0x20 1
        let m : BitVec 512 := BitVec.ofNat 512 (leNat (p.operand.getD []))
        let old := mget 0 d.chn.groups g
        let to_ := fun (x : BitVec 512) => ({ dev := { d with chn := { d.chn with groups := mset 0 d.chn.groups g x } } } : ARes)
        (argN c 0x21 1 = 0 → res = to_ m) ∧ (argN c 0x21 1 = 1 → res = to_ (old ||| m))
        ∧ (argN c 0x21 1 = 2 → res = to_ (old &&& ~~~m)))
    ∧ (p.opcode = 0x0202 → argN c 0x20 1 = 1 → argN c 0x21 1 = 0 → p.members = [{ idx := argN c 0x22 2, af := e.fn }] →
        (outStat (cfg d) (argN c 0x22 2)).biqMax ≠ 0 →
        let n := argN c 0x22 2
        let r := applyCmd p (some [n]) e d
        let o := outAt d n
        let x := setOut n { o with
          stgBiq := o.app.biq, app := { o.app with biq := o.stgBiq, biqBank := !o.app.biqBank } } d
        (∀ i k, p.bad = some (i, k) → r = { dev := d, status := some 0x0111, detail := [i, k] })
        ∧ (p.bad = none →
            r = { dev := { x with chn := { x.chn with swapped := d.chn.swapped ++ [(1, n, e.fn)] } } }))

/-- ROUTE, STREAM_RX, STREAM_TX, SINK_SET and DEC_RUN at their AF: the route's selected fields change within their
limits; an unknown source is judged at acceptance, with ROUTE_BAD, and not again (R120); FORMAT 0 turns a slot off and
keeps the rest; a transmit slot takes all its fields where the streams fit; a sink joins or leaves the list; a chain
starts where its rates are consistent and stops where it serves no channel that is on (R133, R136, R137, R292). -/
def Obligations.RoutingCommandsActAtTheirFrame : Prop :=
  ∀ (p : Pend) (due : Option (List Nat)) (e : Env) (d : Device),
    let c := p.d
    let res := applyCmd p due e d
    (p.opcode = 0x0300 → ∀ r : RouteState, destRoute d (argN c 0x20 2) = some r →
        let sel := argN c 0x24 1
        let g : F36 := BitVec.ofNat 36 (argN c 0x28 8)
        let xf := argN c 0x26 2
        (bit sel 0 = true → sourceOk d (argN c 0x22 2) = false → judgeOnce p d = (0x010D, []))
        ∧ ((bit sel 0 = true → sourceOk d (argN c 0x22 2) = true) → judgeOnce p d = (0, []))
        ∧ (bit sel 1 = true → flt g 0 = true → res = { dev := d, status := some 0x0103 })
        ∧ ((bit sel 1 = true → flt g 0 = false) →
            res = { dev := setRoute (argN c 0x20 2)
                      { src := if bit sel 0 then argN c 0x22 2 else r.app.src
                        gain := if bit sel 1 then (if flt gainMax g then gainMax else fcanon g) else r.app.gain
                        xf := if bit sel 2 then max 1 (min 600 xf) else r.app.xf } d
                    clamped := if (bit sel 1 && flt gainMax g) || (bit sel 2 && !between 1 600 xf) then 1 else 0 }))
    ∧ (p.opcode = 0x0300 → destRoute d (argN c 0x20 2) = none → res = { dev := d, status := some 0x010D })
    ∧ (p.opcode = 0x0301 → argN c 0x21 1 = 0 → (slotAt d (argN c 0x20 1)).format = 0 →
        rxTotal (mset {} d.inp.rx (argN c 0x20 1) (slotAt d (argN c 0x20 1))) ≤ 4096 →
        res = { dev := { d with inp := { d.inp with rx := mset {} d.inp.rx (argN c 0x20 1) (slotAt d (argN c 0x20 1)) } } })
    ∧ (p.opcode = 0x0301 → argN c 0x21 1 ≠ 0 → ∀ t, res.status = some 0 → res.dev = t →
        let x := slotAt t (argN c 0x20 1)
        x.format = argN c 0x21 1 ∧ x.paths = argN c 0x22 1 ∧ x.hub = argN c 0x23 1 ∧ x.ch = argN c 0x24 2
        ∧ x.base = argN c 0x26 2 ∧ x.streamId = BitVec.ofNat 64 (argN c 0x28 8)
        ∧ x.rtpOff = BitVec.ofNat 32 (argN c 0x30 4)
        ∧ (∀ k, k ≠ argN c 0x20 1 → slotAt t k = slotAt d k) ∧ rxTotal t.inp.rx ≤ 4096)
    ∧ (p.opcode = 0x0301 → res.status ≠ some 0 → res.dev = d)
    ∧ (p.opcode = 0x0302 →
        let k := argN c 0x20 1
        let fmt := argN c 0x21 1
        let new : TxSlot := if fmt = 0 then { mget {} d.eth.tx k with format := 0 } else
          { format := fmt, paths := argN c 0x22 1, ch := argN c 0x24 2, first := argN c 0x26 2
            streamId := BitVec.ofNat 64 (argN c 0x28 8), dest := BitVec.ofNat 48 (argN c 0x30 6)
            vlan := BitVec.ofNat 16 (argN c 0x36 2) }
        let tx := mset {} d.eth.tx k new
        (txTotal tx ≤ 2048 → loadFits d 0 tx = true → loadFits d 1 tx = true →
          res = { dev := { d with eth := { d.eth with tx := tx } } })
        ∧ ((2048 < txTotal tx ∨ loadFits d 0 tx = false ∨ loadFits d 1 tx = false) →
          res = { dev := d, status := some 0x0103 }))
    ∧ (p.opcode = 0x0303 →
        let a : SinkAsg := { out := argN c 0x20 2, kind := argN c 0x22 1, sink := argN c 0x24 2, chan := argN c 0x26 2 }
        let bad := fun add => sinkErr d (nOut d) (sinkCount d a.kind a.sink) d.chn.sinks add a
        (argN c 0x23 1 = 1 → bad true = 0 → a ∉ d.chn.sinks →
          res = { dev := { d with chn := { d.chn with sinks := d.chn.sinks ++ [a] } } })
        ∧ (argN c 0x23 1 = 1 → bad true = 0 → a ∈ d.chn.sinks → res = { dev := d })
        ∧ (argN c 0x23 1 = 0 → bad false = 0 →
          res = { dev := { d with chn := { d.chn with sinks := d.chn.sinks.filter (· ≠ a) } } })
        ∧ (argN c 0x23 1 = 1 → bad true ≠ 0 → res = { dev := d, status := some (bad true) })
        ∧ (argN c 0x23 1 = 0 → bad false ≠ 0 → res = { dev := d, status := some (bad false) }))
    ∧ (p.opcode = 0x0304 → ∀ n < 40, c.func.toNat = 0x20 + n →
        (argN c 0x20 1 = 1 → decConsistent (cfg d).fs96 (decAt d n) = false → res = { dev := d, status := some 0x0103 })
        ∧ (argN c 0x20 1 = 1 → decConsistent (cfg d).fs96 (decAt d n) = true →
            res = { dev := modDec n (fun x => { x with started := true }) d })
        ∧ (argN c 0x20 1 = 0 → chainBusy d n = true → res = { dev := d, status := some 0x0118 })
        ∧ (argN c 0x20 1 = 0 → chainBusy d n = false → res = { dev := modDec n (fun x => { x with started := false }) d }))

/-- The servo, the epoch pair and the clock reference. A servo sample that is stale, or comes in the quiet state, only
counts; any other one that takes no step updates the two frequency words within ±250 ppm. The pair is installed,
advanced once where TIME_NS wrapped since its arrival. Another reference restarts the clock states: an external one
qualifies first, the others go to ACQUIRE at once; the reference in use changes nothing (R430, R438 to R442, R452). -/
def Obligations.ClockCommandsActAtTheirFrame : Prop :=
  ∀ (p : Pend) (due : Option (List Nat)) (e : Env) (d : Device),
    let c := p.d
    let res := applyCmd p due e d
    let o := sext 64 (argN c 0x20 8)
    let meas : BitVec 32 := BitVec.ofNat 32 (argN c 0x28 4)
    let k := d.clk
    let stale := (timeNs d - meas).toNat > 2 ^ 30 ∨ (∃ m, k.lastMeas = some m ∧ earlier meas m = true)
    (p.opcode = 0x0500 → (d.pwr.quiet = true ∨ stale) →
      res = { dev := { d with clk := { k with stale := inc32 k.stale } } })
    ∧ (p.opcode = 0x0500 → d.pwr.quiet = false → ¬stale →
        (o.natAbs < k.stepThr * 65536 ∨ (e.fnSync = true ∧ d.pwr.rendering = true)) →
        let i := k.yI - Int.fdiv (o * k.ki) 65536
        let t := res.dev.clk
        res.status = some 0 ∧ t.yI = clampY i ∧ t.lastMeas = some meas ∧ t.sinceSample = 0 ∧ t.time = k.time
        ∧ t.epochValid = k.epochValid ∧ t.stale = k.stale
        ∧ t.y = clampY (clampY i - Int.fdiv (o * k.kp) 65536))
    ∧ (p.opcode = 0x0500 → d.pwr.quiet = false → ¬stale → k.stepThr * 65536 ≤ o.natAbs →
        (e.fnSync = false ∨ d.pwr.rendering = false) →
        res.dev.clk.time = BitVec.ofInt 72 ((k.time.toNat : Int) - o * (2 ^ 24 : Nat)) ∧ res.dev.clk.epochValid = false
        ∧ res.dev.clk.stepped = true)
    ∧ (p.opcode = 0x0501 →
        let q := epochArgs c.args
        let wrapped := (timeNs d).toNat < nth 0 p.detail 0
        (¬wrapped → res = { dev := { d with clk := { k with epoch := q, epochValid := true, wrapped := false } } })
        ∧ (wrapped → res = { dev := { d with clk := { k with
            epoch := { secCur := q.secNext, nsCur := q.nsNext, secNext := q.secNext + (q.nsNext + 4294967296) / 1000000000
                       nsNext := (q.nsNext + 4294967296) % 1000000000 }
            epochValid := true, wrapped := false } } }))
    ∧ (p.opcode = 0x0502 → k.ref = argN c 0x20 1 → res = { dev := d })
    ∧ (p.opcode = 0x0502 → k.ref ≠ argN c 0x20 1 →
        let r := argN c 0x20 1
        let t := res.dev.clk
        res.status = some 0 ∧ t.ref = r ∧ t.st = .acquire ∧ t.step = (if r = 1 ∨ r = 2 then 1 else 3) ∧ t.stepFrames = 0
        ∧ t.failures = 0 ∧ t.aligned = false ∧ t.y = k.y ∧ t.time = k.time)

/-! ## Time and clocks (chapter 15) -/

/-- A change of the clock state, of the servo state or of the pair state raises its event with the old and the new state;
no change raises none (R228, R441, R447). -/
def Sys2Proof.Machine.StateChangesRaiseTheirEvents : Prop :=
  ∀ (e : Env) (d : Device),
    (∀ st, d.clk.st = st → setClk st e d = d)
    ∧ (∀ st, d.clk.st ≠ st → setClk st e d = raise 0x1011 0
        [BitVec.ofNat 8 (clkNum d.clk.st), BitVec.ofNat 8 (clkNum st), BitVec.ofNat 8 d.clk.ref] e
        { d with clk := { d.clk with st := st } })
    ∧ (∀ st, d.clk.servo = st → setServo st e d = d)
    ∧ (∀ st, d.clk.servo ≠ st → setServo st e d = raise 0x1012 0
        [BitVec.ofNat 8 (servoNum d.clk.servo), BitVec.ofNat 8 (servoNum st)] e
        { d with clk := { d.clk with servo := st, good := 0, badN := 0, y := if st = .hold then d.clk.yI else d.clk.y } })
    ∧ (∀ st cause, d.pair.st = st → setPairSt st cause e d = d)
    ∧ (∀ st cause, d.pair.st ≠ st → setPairSt st cause e d =
        let x := raise 0x1004 0
          [BitVec.ofNat 8 (pairNum d.pair.st), BitVec.ofNat 8 (pairNum st), BitVec.ofNat 8 cause] e d
        { x with pair := { x.pair with st := st, cause := if cause = 0 then x.pair.cause else cause } })

/-- The steps by which the clock returns to LOCKED: a qualified reference is aligned in ACQUIRE, the band search and the
lock follow, the switch enters LOCKED and starts the tick; a step that takes too long starts again, the third time
MEDIA_PLL_FAIL is raised and HOLDOVER stays, and 6,000 frames later the first step begins anew (R450). -/
def Sys2Proof.Machine.ClockReturnsToLockedStepByStep : Prop :=
  ∀ s : State, s.dev.alive = true →
    let d := s.dev
    let k := d.clk
    let e := envOf {} s
    let at_ := fun (n : Nat) (x : Device) => { x with clk := { x.clk with step := n, stepFrames := 0 } }
    (k.step = 1 → k.refQual ≤ k.stepFrames → exec .refQualified s = .next (s.after {} (at_ 2 (setClk .acquire e d))))
    ∧ (k.step ≠ 1 ∨ k.stepFrames < k.refQual → exec .refQualified s = .next (s.after {} d))
    ∧ (k.step = 2 → exec .alignDone s = .next (s.after {} (at_ 3 d)))
    ∧ (k.step ≠ 2 → exec .alignDone s = .next (s.after {} d))
    ∧ (k.step = 3 → exec .bandSearchDone s = .next (s.after {} (at_ 4 d)))
    ∧ (k.step ≠ 3 → exec .bandSearchDone s = .next (s.after {} d))
    ∧ (k.step = 4 → (k.tickOn = false ∨ 60 ≤ k.stepFrames) →
        let x := setClk .locked e (at_ 0 d)
        exec .mediaPllLock s = .next (s.after {} { x with clk := { x.clk with
          failures := 0, tickOn := true, stepped := k.stepped || k.stepOnLock, stepOnLock := false } }))
    ∧ (k.step ≠ 4 ∨ (k.tickOn = true ∧ k.stepFrames < 60) → exec .mediaPllLock s = .next (s.after {} d))
    ∧ ((k.step = 3 ∨ k.step = 4) → (k.tickOn = false ∨ 300 ≤ k.stepFrames) →
        let x := { d with clk := { k with failures := k.failures + 1 } }
        (k.failures < 2 → exec .mediaPllTimeout s = .next (s.after {} (at_ 3 x)))
        ∧ (2 ≤ k.failures → exec .mediaPllTimeout s = .next (s.after {}
            (at_ 0 (setClk .holdover e (raise 0x201B 0 (leBytes 1 (k.failures + 1)) e x))))))
    ∧ ((k.step ≠ 3 ∧ k.step ≠ 4) ∨ (k.tickOn = true ∧ k.stepFrames < 300) →
        exec .mediaPllTimeout s = .next (s.after {} d))
    ∧ (k.st ≠ .holdover ∨ k.step ≠ 0 ∨ k.failures < 3 ∨ (k.tickOn = true ∧ k.stepFrames < 6000) →
        exec .mediaPllRetry s = .next (s.after {} d))
    ∧ (k.st = .holdover → k.step = 0 → 3 ≤ k.failures → (k.tickOn = false ∨ 6000 ≤ k.stepFrames) →
        let x := { d with clk := { k with failures := 0 } }
        ((k.ref = 1 ∨ k.ref = 2) → exec .mediaPllRetry s = .next (s.after {} (at_ 1 x)))
        ∧ (k.ref ≠ 1 → k.ref ≠ 2 → exec .mediaPllRetry s = .next (s.after {} (at_ 3 (setClk .acquire e x)))))

/-- REF_LOST takes a locked clock to HOLDOVER and reports the condition, where it is one of the reference in use; SERVO
and FREE modes know media PLL loss alone (R449). SERVO_TIMEOUT takes the servo to HOLD, where y := yI (R441). EPOCH_WRAP
advances a valid pair by 2^32 ns (R431). A read of TIME_NS latches bits [39:24] of the fraction and FN (R429). -/
def Sys2Proof.Machine.ClockEventsActAsTheirRulesSay : Prop :=
  ∀ s : State, s.dev.alive = true →
    let d := s.dev
    let k := d.clk
    let e := envOf {} s
    (∀ c, k.st = .locked → (c = 5 ∨ (k.ref = 1 ∧ 1 ≤ c ∧ c ≤ 3) ∨ (k.ref = 2 ∧ c = 4)) →
        ∃ t, exec (.refLost c) s = .next (s.after {} t) ∧ t.clk.failures = 0 ∧ t.clk.aligned = false ∧ t.clk.stepFrames = 0
          ∧ t.clk.time = k.time ∧ t.clk.y = k.y ∧ t.clk.servo = k.servo ∧ t.clk.tickOn = k.tickOn ∧ t.cmd = d.cmd
          ∧ ((k.ref = 1 ∨ k.ref = 2) → t.clk.st = .holdover ∧ t.clk.step = 1)
          ∧ (k.ref ≠ 1 → k.ref ≠ 2 → t.clk.st = .acquire ∧ t.clk.step = 3)
          ∧ (d.evt.store.length < 250 →
              ∃ v ∈ t.evt.store, v.code = 0x2017 ∧ v.detail = [BitVec.ofNat 8 c, 0, 0, 0, 0, 0] ∧ v.fn = s.fc.fn))
    ∧ (∀ c, k.st ≠ .locked → c ≠ 5 → ((k.ref = 1 ∧ 1 ≤ c ∧ c ≤ 3) ∨ (k.ref = 2 ∧ c = 4)) → 1 ≤ k.step →
        let again := fun (x : Device) => { x with clk := { x.clk with step := 1, stepFrames := 0 } }
        (k.step = 1 → exec (.refLost c) s = .next (s.after {} (again d)))
        ∧ (2 ≤ k.step → exec (.refLost c) s = .next (s.after {} (again (setClk .holdover e d)))))
    ∧ (∀ c, c ≠ 5 → k.ref ≠ 1 → k.ref ≠ 2 → exec (.refLost c) s = .next (s.after {} d))
    ∧ (k.timeout ≤ k.sinceSample → exec .servoTimeout s = .next (s.after {} (setServo .hold e d)))
    ∧ (k.sinceSample < k.timeout → exec .servoTimeout s = .next (s.after {} d))
    ∧ (k.wrapped = true → k.epochValid = true →
        let p := k.epoch
        exec .epochWrap s = .next (s.after {} { d with clk := { k with wrapped := false, epoch :=
          { secCur := p.secNext, nsCur := p.nsNext, secNext := p.secNext + (p.nsNext + 4294967296) / 1000000000
            nsNext := (p.nsNext + 4294967296) % 1000000000 } } }))
    ∧ (k.wrapped = true → k.epochValid = false →
        exec .epochWrap s = .next (s.after {} { d with clk := { k with wrapped := false } }))
    ∧ (k.wrapped = false → exec .epochWrap s = .next (s.after {} d))
    ∧ ∀ cyc, d.pwr.sramClear = true → exec (.timeNsRead cyc) s = .next (s.after {} { d with clk := { k with
        timeFrac := BitVec.ofNat 16 ((timeAfter k cyc).toNat / 2 ^ 24), timeFn := s.fc.fn } })

/-- StateChangesRaiseTheirEvents, ClockReturnsToLockedStepByStep and ClockEventsActAsTheirRulesSay together: the
statements above of these names, each with the rules that it names. -/
def Obligations.ClockStatesAndEventsFollowTheirRules : Prop :=
  StateChangesRaiseTheirEvents ∧ ClockReturnsToLockedStepByStep ∧ ClockEventsActAsTheirRulesSay

/-- The first lock of the media PLL begins: ACQUIRE, band search, no tick running (R450, R476, R489). -/
def Sys2Proof.Machine.firstLocked (e : Env) (d : Device) : Device :=
  let x := setClk .acquire e { d with clk := { d.clk with failures := 0, tickOn := false } }
  { x with clk := { x.clk with step := 3, stepFrames := 0 } }

/-- A submission by register, SRV_GO, EP_GO or CREF, copies its data registers and waits with at most eight of its form; a
further one is discarded and sets REG_DROP; a servo sample in the quiet state is stale (R488, R508, R509). -/
def Sys2Proof.Machine.RegisterFormsWaitEightDeep : Prop :=
  ∀ s : State, s.dev.alive = true → s.dev.pwr.sramClear = true →
    let d := s.dev
    let k := d.clk
    let full := { d with clk := { k with regDrop := true } }
    let srv : CmdDesc := { args := leBytes 8 k.srvOfs.toNat ++ leBytes 4 k.srvMeas.toNat ++ zeros 20 }
    let ep : CmdDesc :=
      { args := leBytes 6 k.epSecCur.toNat ++ zeros 2 ++ leBytes 4 k.epNsCur.toNat ++ zeros 4
          ++ leBytes 6 k.epSecNext.toNat ++ zeros 2 ++ leBytes 4 k.epNsNext.toNat ++ zeros 4 }
    (d.pwr.quiet = true → exec .srvGo s = .next (s.after {} { d with clk := { k with stale := inc32 k.stale } }))
    ∧ (d.pwr.quiet = false → d.cmd.srv.length < 8 →
        exec .srvGo s = .next (s.after {} { d with cmd := { d.cmd with srv := d.cmd.srv ++ [srv] } }))
    ∧ (d.pwr.quiet = false → 8 ≤ d.cmd.srv.length → exec .srvGo s = .next (s.after {} full))
    ∧ (d.cmd.ep.length < 8 →
        exec .epGo s = .next (s.after {} { d with cmd := { d.cmd with ep := d.cmd.ep ++ [ep] } }))
    ∧ (8 ≤ d.cmd.ep.length → exec .epGo s = .next (s.after {} full))
    ∧ (∀ v : BitVec 32, v.getLsbD 31 = true → d.cmd.cref.length < 8 →
        let c : CmdDesc := { args := leBytes 1 (v.toNat % 4) ++ zeros 31 }
        exec (.cref v) s = .next (s.after {} { d with cmd := { d.cmd with cref := d.cmd.cref ++ [c] } }))
    ∧ (∀ v : BitVec 32, v.getLsbD 31 = true → 8 ≤ d.cmd.cref.length → exec (.cref v) s = .next (s.after {} full))
    ∧ ∀ v : BitVec 32, v.getLsbD 31 = false → exec (.cref v) s = .next (s.after {} d)

/-! ## Requests through registers (chapters 17, 18) -/

/-- DEV_RESET, FLR and PWR_CYCLE ask for a warm reset or a power cycle; a wrong value is discarded and sets ACC_ERR; on
an active hub of a pair they wait for its withdrawal. HEARTBEAT_WATCHDOG asks for the power cycle at 60,000 frames
(R242, R490, R493). -/
def Sys2Proof.Machine.ResetRequestsAreNotedWithTheirCause : Prop :=
  ∀ s : State, s.dev.alive = true →
    let d := s.dev
    let open_ := d.pwr.sramClear = true
    let alone := ¬(paired d = true ∧ d.pwr.spoke = false ∧ isActive d.pair = true ∧ d.pair.delayed = none)
    let bad := { d with pwr := { d.pwr with accErr := true } }
    let silent := d.ring.go = true ∧ d.pwr.hbWdEn = true ∧ 60000 ≤ d.ring.hbAge ∧ d.pwr.quiet = false ∧ d.pwr.wdAsked = false
    let asks := fun (c : BitVec 7) => { d.pwr with nextCause := d.pwr.nextCause ||| c }
    (open_ → (∀ v : BitVec 32, v ≠ 0xD00D#32 → exec (.devReset v) s = .next (s.after {} bad))
      ∧ ∀ v : BitVec 32, v ≠ 0x5C5C#32 → exec (.pwrCycle v) s = .next (s.after {} bad))
    ∧ (alone →
        (open_ → exec (.devReset 0xD00D#32) s = .next (s.after {} { d with pwr := asks 4#7 })
          ∧ exec .flr s = .next (s.after {} { d with pwr := asks 8#7 })
          ∧ exec (.pwrCycle 0x5C5C#32) s = .next (s.after {} { d with pwr := { d.pwr with hostAsked := true } }))
        ∧ (silent → exec .heartbeatWatchdog s = .next (s.after {} { d with pwr := { d.pwr with wdAsked := true } })))
    ∧ (¬alone →
        let x := fun (kind : Nat) => noteCause 8 { d with pair := { d.pair with delayed := some (2, kind) } }
        (open_ → exec (.devReset 0xD00D#32) s = .next (s.after {} { x 1 with pwr := asks 4#7 })
          ∧ exec .flr s = .next (s.after {} { x 2 with pwr := asks 8#7 })
          ∧ exec (.pwrCycle 0x5C5C#32) s = .next (s.after {} { x 3 with pwr := { d.pwr with hostAsked := true } }))
        ∧ (silent → exec .heartbeatWatchdog s = .next (s.after {} { x 4 with pwr := { d.pwr with wdAsked := true } })))
    ∧ (¬silent → exec .heartbeatWatchdog s = .next (s.after {} d))

/-- RegisterFormsWaitEightDeep and ResetRequestsAreNotedWithTheirCause together: the statements above of these names,
each with the rules that it names. -/
def Obligations.RegisterFormsAndResetRequestsAreNoted : Prop :=
  RegisterFormsWaitEightDeep ∧ ResetRequestsAreNotedWithTheirCause

/-- LIMIT_UNLOCK answers a next state in every state: it opens the unlock on 0x0000_A55A followed by 0x0000_5AA5 alone,
for 600 frames, any other write discards the sequence, and a write while it is open closes it. LIMIT_UNLOCK_EXPIRE
closes it once its 600 frames have passed, and does nothing before (R506). -/
def Sys2Proof.Machine.LimitUnlockOpensOnTwoWrites : Prop :=
  ∀ s : State, s.dev.alive = true →
    let d := s.dev
    let j := d.jrn
    let to_ := fun (i : Instr) (x : JournalState) => exec i s = .next (s.after {} { d with jrn := x })
    (d.pwr.sramClear = true →
      (∀ v, j.unlocked = true → to_ (.limitUnlock v) { j with unlocked := false, openFor := 0, armed := false })
      ∧ (j.unlocked = false → j.armed = true →
          to_ (.limitUnlock 0x5AA5#32) { j with unlocked := true, openFor := 600, armed := false })
      ∧ (∀ v, j.unlocked = false → j.armed = true → v ≠ 0x5AA5#32 → to_ (.limitUnlock v) { j with armed := false })
      ∧ (j.unlocked = false → j.armed = false → to_ (.limitUnlock 0xA55A#32) { j with armed := true })
      ∧ ∀ v, j.unlocked = false → j.armed = false → v ≠ 0xA55A#32 → to_ (.limitUnlock v) j)
    ∧ (j.unlocked = true → j.openFor = 0 → to_ .limitUnlockExpire { j with unlocked := false })
    ∧ (j.unlocked = false ∨ j.openFor ≠ 0 → to_ .limitUnlockExpire j)

/-- The DONE block of a command that ends unapplied with a status. -/
def Sys2Proof.Machine.droppedBlock (status : Nat) (p : Pend) : ResultBlk :=
  { done := true, marks := marksOf p false, status := status, opcode := p.opcode, func := p.d.func, tag := p.d.tag
    ridx := p.ridx, af := p.af, detail := [], notify := p.d.cflags.getLsbD 1 }

/-- QUIET_ENTER is refused while rendering runs or a power channel is on; else the quiet state is entered: each command
that waits completes with STOPPED, no fetch is under way, every Ethernet link is down, no decimation chain runs, every
rail reference is 0, the clock is OFF, the servo holds, the tick stops and FN_SYNC is clear while FN and device time
stay. QUIET_EXIT ends it and runs the first lock of the media PLL. In the quiet state, out of it, each does nothing more
(R487, R489). -/
def Sys2Proof.Machine.QuietStateIsEnteredAndLeft : Prop :=
  ∀ s : State, s.dev.alive = true → s.dev.pwr.sramClear = true →
    let d := s.dev
    let waits := d.cmd.queue.filter (fun p => !p.applied)
    (d.pwr.quiet = true → exec .quietEnter s = .next (s.after {} d))
    ∧ (d.pwr.quiet = false → (d.pwr.rendering = true ∨ (List.range 16).any (pchActive d) = true) →
        exec .quietEnter s = .next (s.after {} { d with pwr := { d.pwr with quietRefused := true } }))
    ∧ (d.pwr.quiet = false → d.pwr.rendering = false → (List.range 16).any (pchActive d) = false →
        ∃ t, exec .quietEnter s = .next t ∧ t.dev.pwr = { d.pwr with quiet := true } ∧ t.fc = { s.fc with fnSync := false }
          ∧ t.pending = s.pending ∧ (∀ q ∈ t.dev.cmd.queue, q.applied = true)
          ∧ t.dev.cmd.results = d.cmd.results ++ (waits.filter (fun p => !p.silent)).map (droppedBlock 5)
          ∧ t.dev.ring.fetching = false ∧ (∀ p < 4, (portAt t.dev p).link = false)
          ∧ (∀ n, (decAt t.dev n).running = false ∧ (decAt t.dev n).started = false)
          ∧ (∀ g, (railAt t.dev g).rho = 0)
          ∧ t.dev.clk.tickOn = false ∧ t.dev.clk.st = .off ∧ t.dev.clk.servo = .hold ∧ t.dev.clk.time = d.clk.time)
    ∧ (d.pwr.quiet = false → exec .quietExit s = .next (s.after {} d))
    ∧ (d.pwr.quiet = true →
        ∃ t, exec .quietExit s = .next (s.after {} t) ∧ t.pwr = { d.pwr with quiet := false } ∧ t.clk.st = .acquire
          ∧ t.clk.step = 3 ∧ t.clk.stepFrames = 0 ∧ t.clk.tickOn = false ∧ t.clk.failures = 0 ∧ t.cmd = d.cmd
          ∧ t.clk.time = d.clk.time ∧ t.geo = d.geo ∧ t.chn = d.chn ∧ t.psc = d.psc)

/-- LimitUnlockOpensOnTwoWrites and QuietStateIsEnteredAndLeft together: the statements above of these names, each with
the rules that it names. -/
def Obligations.LimitUnlockAndQuietStateFollowTheirRules : Prop :=
  LimitUnlockOpensOnTwoWrites ∧ QuietStateIsEnteredAndLeft

/-- An MDIO frame of each kind (C22_WRITE, C22_READ, C45_ADDRESS, C45_WRITE, C45_READ) goes out and keeps the interface
busy until MDIO_DONE ends it, when a read latches its data; a write while it is busy is discarded (R522). -/
def Obligations.MdioFramesRunOneAtATime : Prop :=
  ∀ s : State, s.dev.alive = true →
    let d := s.dev
    let m := d.eth
    let out := fun (op : Nat) (a r : BitVec 5) (v : BitVec 16) (rd : Bool) => s.after {} { d with eth := { m with
      mdioBusy := true, mdioRead := rd, mdioFrame := some (op, a, r, v) } }
    let bad := s.after {} { d with pwr := { d.pwr with accErr := true } }
    ∀ (a r : BitVec 5) (v : BitVec 16),
      (d.pwr.sramClear = true → m.mdioBusy = false →
        exec (.c22Write a r v) s = .next (out 0 a r v false) ∧ exec (.c22Read a r) s = .next (out 1 a r 0 true)
        ∧ exec (.c45Address a r v) s = .next (out 2 a r v false) ∧ exec (.c45Write a r v) s = .next (out 3 a r v false)
        ∧ exec (.c45Read a r) s = .next (out 4 a r 0 true))
      ∧ (d.pwr.sramClear = true → m.mdioBusy = true →
        exec (.c22Write a r v) s = .next bad ∧ exec (.c22Read a r) s = .next bad ∧ exec (.c45Address a r v) s = .next bad
        ∧ exec (.c45Write a r v) s = .next bad ∧ exec (.c45Read a r) s = .next bad)
      ∧ (m.mdioBusy = false → exec (.mdioDone v) s = .next (s.after {} d))
      ∧ (m.mdioBusy = true → exec (.mdioDone v) s = .next (s.after {} { d with eth := { m with
            mdioBusy := false, mdioFrame := none, mdioData := if m.mdioRead then v else m.mdioData } }))

/-- IMG_LOAD discards the image in force and reads the new one where nothing forbids it, and is refused with the code of
R478 where something does; IMG_LOAD_DONE ends it: a failing read or a failing check of header, directory or sections
refuses the image, which leaves the device unconfigured; an image that passes is in force (R478, R484 to R486). -/
def Obligations.ImageLoadEndsLoadedOrRefused : Prop :=
  ∀ (h : HostView) (s : State), s.dev.alive = true →
    let d := s.dev
    let g := d.img
    let e := envOf h s
    let freed := settleDram d
    (d.pwr.sramClear = true →
      (g.st = 1 → exec (.imgLoad h) s = .next (s.after h d))
      ∧ (g.st ≠ 1 → loadRefusal d = 0 → exec (.imgLoad h) s =
          .next (s.after h { freed with img := { g with img := none, st := 1, code := 0, detail := [0, 0, 0, 0] } }))
      ∧ (g.st ≠ 1 → loadRefusal d = 0x010A → exec (.imgLoad h) s =
          .next (s.after h { d with img := { g with st := 3, code := 0x010A, detail := [0, 0, 0, 0] } }))
      ∧ (g.st ≠ 1 → loadRefusal d ≠ 0 → loadRefusal d ≠ 0x010A → exec (.imgLoad h) s =
          .next (s.after h
            { freed with img := { g with img := none, st := 3, code := loadRefusal d, detail := [0, 0, 0, 0] } })))
    ∧ (g.st ≠ 1 → exec (.imgLoadDone h) s = .next (s.after h d))
    ∧ (g.st = 1 → dmaRead e d g.addr.toNat g.len.toNat = none →
        ∃ t, exec (.imgLoadDone h) s = .next (s.after h t) ∧ t.img.st = 3 ∧ t.img.code = 0x0106 ∧ t.img.img = none)
    ∧ (g.st = 1 → ∀ b, dmaRead e d g.addr.toNat g.len.toNat = some b →
        let x := { d with img := { g with imgId := BitVec.ofNat 64 (fld b 0x10 8) } }
        let heads := headerChecks b g.len.toNat d.pwr.spoke ++ directoryChecks b g.len.toNat d.pwr.spoke
        let i := parseImage b d.pwr.spoke
        (∀ f, firstBad heads = some f →
          ∃ t, exec (.imgLoadDone h) s = .next (s.after h t) ∧ t.img.st = 3 ∧ t.img.code = f.code
            ∧ (f.code ≠ 0x010A → t.img.img = none))
        ∧ (∀ f, firstBad heads = none → firstBad (sectionChecks x b) = some f →
          ∃ t, exec (.imgLoadDone h) s = .next (s.after h t) ∧ t.img.st = 3 ∧ t.img.code = f.code
            ∧ (f.code ≠ 0x010A → t.img.img = none))
        ∧ (firstBad heads = none → firstBad (sectionChecks x b) = none → (imageCheck x i).fail ≠ none →
          ∃ t, exec (.imgLoadDone h) s = .next (s.after h t) ∧ t.img.st = 3 ∧ t.img.code = 0x0107 ∧ t.img.img = none)
        ∧ (firstBad heads = none → firstBad (sectionChecks x b) = none → (imageCheck x i).fail = none →
          ∃ t, exec (.imgLoadDone h) s = .next (s.after h t) ∧ t.img.st = 2 ∧ t.img.code = 0 ∧ t.img.img = some i))

/-! ## Supplies, reset, temperature (chapter 17) -/

/-- The device as it leaves the reset of power-up: its role, cause POWER, OTP read, and an event for each journal slot
that holds no valid record. -/
def Sys2Proof.Machine.startedUp (spoke : Bool) (e : Env) (d : Device) : Device :=
  forAll d.jrn.slots.zipIdx (fun p x => if p.1.valid then x else raise 0x3008 0 (leBytes 1 p.2) e x)
    { d with
      jrn := { d.jrn with otpFail := Config.otpFails }
      pwr := { d.pwr with
        inReset := false, cause := 1#7, nextCause := 0, spoke := spoke, otpRead := true
        setupReady := d.pwr.sramClear && d.clk.sysLocked } }

/-- The events that a device without power or in reset does not ignore. -/
def Sys2Proof.Machine.reachesReset : Instr → Prop
  | .powerUp | .supplyFault | .resetNAssert | .resetNRelease _ | .thermalRecover _ | .sysPllLoss | .sysPllLock
  | .resetDone => True
  | _ => False

/-- SUPPLY_FAULT, POWER_UP, RESET_N_ASSERT and RESET_N_RELEASE answer a next state in every state. A supply fault holds
the device in reset with every gate low; POWER_UP keeps OTP and nothing else, with FN at 0, and starts the device, or
holds it while RESET_N is low; RESET_N asserted asks for a reset with cause RESET_N; its rising edge samples the strap
where no role is committed, and starts the device at power-up. Without power, or in reset, the device ignores every
other command (R218, R221, R471 to R473, R476, R490). -/
def Obligations.SuppliesAndResetPinHoldTheDevice : Prop :=
  ∀ s : State,
    let d := s.dev
    let p := d.pwr
    let e := envOf {} s
    let gates := forAll (List.range 16) gatesOff d
    let cut := (d.jrn.committing.take 1).map (fun q => { q.2 with valid := false })
    let otp : JournalState := { slots := d.jrn.slots ++ cut, otpFail := d.jrn.otpFail }
    let zero : State := { s with fc := {} }
    let cold : Device := { jrn := otp, free := d.free, pwr := { spoke := p.spoke, resetN := p.resetN } }
    let role := committedRole d
    (p.powered = true → exec .powerUp s = .next s
      ∧ exec .supplyFault s = .next (s.after {} { gates with pwr := { p with powered := false, inReset := true } }))
    ∧ (p.powered = false → exec .supplyFault s = .next (s.after {} d))
    ∧ (p.powered = false → p.resetN = false → exec .powerUp s = .next (zero.after {}
        { cold with pwr := { cold.pwr with inReset := true, nextCause := 1#7 } }))
    ∧ (p.powered = false → p.resetN = true → exec .powerUp s = .next (zero.after {}
        (startedUp (if committedRole cold = 0 then p.spoke else decide (committedRole cold = 2)) (envOf {} zero) cold)))
    ∧ exec .resetNAssert s = .next (s.after {} { d with pwr := { p with
        resetN := false, nextCause := if p.inReset ∧ p.nextCause = 1#7 then p.nextCause else p.nextCause ||| 2#7 } })
    ∧ (∀ strap, p.resetN = true → exec (.resetNRelease strap) s = .next (s.after {} d))
    ∧ (∀ strap, p.resetN = false →
        let risen := { d with pwr := { p with resetN := true, spoke := if role = 0 then strap else p.spoke } }
        ((p.nextCause ≠ 1#7 ∨ p.powered = false ∨ p.inReset = false) →
          exec (.resetNRelease strap) s = .next (s.after {} risen))
        ∧ (p.powered = true → p.inReset = true → p.nextCause = 1#7 → exec (.resetNRelease strap) s =
            .next (s.after {} (startedUp (if role = 0 then strap else decide (role = 2)) e risen))))
    ∧ ∀ c : Instr, d.alive = false → ¬reachesReset c →
        ∃ t, exec c s = .next t ∧ t.pending = s.pending ∧ { t.dev with outbox := d.outbox } = d

/-- WARM_RESET and RESET_DONE answer a next state in every state. A warm reset that is wanted and need not wait restarts
FN from 0 and resets everything but what its table names: the contents and remaps of SRAM, instruction memory and DRAM,
device time with the epoch pair and the frequency words, the limit journal, the unrepaired cores, the hold conditions
and the causes, and the configuration space unless the cause is FLR or RESET_N; said of a device none of whose bursts
has been granted. RESET_DONE, once nothing holds the device, leaves it unconfigured with RESET_CAUSE set and RESET_DONE
as its first event, after SYS_CLK where the system PLL was lost, and starts the first lock where SRAM is clear (R388,
R443, R475, R490, R491). -/
def Obligations.WarmResetKeepsWhatItsTableNames : Prop :=
  ∀ s : State,
    let d := s.dev
    let p := d.pwr
    let e := envOf {} s
    let due := d.alive = true ∧ p.nextCause ≠ 0 ∧ (d.pair.delayed = none ∨ p.nextCause &&& 0x32#7 ≠ 0)
    (due → ∃ t, exec .warmReset s = .next t ∧ t.fc = {} ∧ t.pending = s.pending
        ∧ t.dev.pwr.inReset = true ∧ t.dev.pwr.rendering = false ∧ t.dev.img = {} ∧ t.dev.cmd = {} ∧ t.dev.evt = {}
        ∧ t.dev.pair = {} ∧ t.dev.ring.go = false ∧ t.dev.ring.rings = [] ∧ t.dev.regs = {}
        ∧ t.dev.clk.servo = .acquire ∧ t.dev.clk.st = .off
        -- with no burst granted, exactly what the table keeps is as it was
        ∧ (d.xbar.serving = [] →
          (∀ c < 64, (coreAt d c).xfers = [] ∧ (coreAt d c).sxfers = [] ∧ (coreAt d c).dead = []) →
            (∀ c < 64, coreAt t.dev c =
              { scratch := (coreAt d c).scratch, bad := (coreAt d c).bad, soft := (coreAt d c).soft })
            ∧ t.dev =
              { jrn := { slots := d.jrn.slots ++ (d.jrn.committing.take 1).map (fun q => { q.2 with valid := false })
                         otpFail := d.jrn.otpFail }
                free := d.free, cores := t.dev.cores, imem := d.imem
                mem := { store := d.mem.store, bad := d.mem.bad, wb := d.mem.wb, pos := d.mem.pos, fails := d.mem.fails
                         lastFail := d.mem.lastFail, remap := d.mem.remap, used := d.mem.used
                         unusable := d.mem.unusable, badSpares := d.mem.badSpares, shadow := d.mem.shadow
                         imemBad := d.mem.imemBad }
                dram := { bytes := (settleDram d).dram.bytes
                          ch := mmap {} (fun _ (c : DramChan) =>
                            ({ ready := c.ready, failed := c.failed, det := c.det, owed := c.owed, hot := c.hot
                               cool := c.cool, scrub := c.scrub, zq := c.zq, soft := c.soft, wb := c.wb
                               bad := c.bad } : DramChan)) d.dram.ch }
                clk := { time := d.clk.time, timeOn := d.clk.timeOn, timeFrac := d.clk.timeFrac, epoch := d.clk.epoch
                         epochValid := d.clk.epochValid, wrapped := d.clk.wrapped, y := d.clk.y, yI := d.clk.yI
                         lastMeas := d.clk.lastMeas, freeTrim := d.clk.freeTrim
                         sysLocked := d.clk.sysLocked, sysLosses := d.clk.sysLosses }
                ring := if p.nextCause.getLsbD 1 = false ∧ p.nextCause.getLsbD 3 = false then
                    { busMaster := d.ring.busMaster, d3hot := d.ring.d3hot, msixMask := d.ring.msixMask
                      msixAddr := d.ring.msixAddr, msixData := d.ring.msixData }
                  else {}
                disp := { cores := mmap {} (fun _ (k : CoreSlot) => ({ unrepaired := k.unrepaired } : CoreSlot)) d.disp.cores }
                xp := { words := d.xp.words, badWords := d.xp.badWords, badEntries := d.xp.badEntries, xps := d.xp.xps }
                pwr := { powered := p.powered, inReset := true, resetN := p.resetN, thermalHold := p.thermalHold
                         pllHold := p.pllHold, cycleHold := p.cycleHold, cause := p.cause, nextCause := p.nextCause
                         spoke := p.spoke, sramClear := p.sramClear, cycleReq := p.cycleReq, dramFail := p.dramFail } }))
    ∧ (¬due → exec .warmReset s = .next s)
    ∧ (let held := p.powered = false ∨ p.inReset = false ∨ p.resetN = false ∨ p.thermalHold = true ∨ p.pllHold = true
        ∨ p.cycleHold = true ∨ p.nextCause = 1#7
      let role := committedRole d
      let event := fun (code : Nat) (detail : List Byte) =>
        ({ code := code, func := 0, fn := s.fc.fn, timeNs := timeNs d, detail := sub detail 0 6 } : Event)
      let lost := p.nextCause.getLsbD 4
      let up := { d with
        jrn := { d.jrn with otpFail := Config.otpFails }
        pwr := { p with
          inReset := false, cause := p.nextCause, nextCause := 0, otpRead := true
          spoke := if role = 0 then p.spoke else decide (role = 2), setupReady := p.sramClear && d.clk.sysLocked }
        evt := { d.evt with
          first := (if lost then [event 0x300A (leBytes 4 d.clk.sysLosses)] else [])
            ++ [event 0x1016 (leBytes 1 p.nextCause.toNat)] }
        clk := { d.clk with sysLost := lost } }
      (held → exec .resetDone s = .next (s.after {} d))
      ∧ (¬held → p.sramClear = false → exec .resetDone s = .next (s.after {} up))
      ∧ (¬held → p.sramClear = true → exec .resetDone s = .next (s.after {} (firstLocked e up))))

/-- Seven events, each with a next state in every state of a powered device. TEMP_WARN: 105 °C is reported once per
excursion and notes cause THERMAL. THERMAL_SHUTDOWN: at 120 °C every gate is low, every power channel of a spoke is
SAFE, and a reset with cause THERMAL is wanted, which holds until THERMAL_RECOVER below 100 °C. SYS_PLL_LOSS takes the
gates low and holds the device with cause SYS_CLK until SYS_PLL_LOCK, the first of which starts device time.
PWR_CYCLE_REQ pulls its pin low and holds the device. SRAM_CLEAR_DONE notes the spares that failed, each once, and
starts the first lock (R193, R240, R357, R428, R443, R476, R492, R494). -/
def Obligations.TemperatureAndClockFaultsResetTheDevice : Prop :=
  ∀ s : State,
    let d := s.dev
    let p := d.pwr
    let e := envOf {} s
    let is_ := fun (i : Instr) (x : Device) => exec i s = .next (s.after {} x)
    let lower := fun (x : Device) => forAll (List.range 16) gatesOff x
    let low := lower d
    let hot := fun (t : Int) (x : Device) => { x with pwr := { x.pwr with temp := t, tempMax := max x.pwr.tempMax t } }
    (∀ t : Int, d.alive = true → 1680 ≤ t → d.pair.thermalNow = false →
      let x := raise 0x2011 0 (leBytes 2 (uext 16 (Int.fdiv t 16))) e (hot t d)
      is_ (.tempWarn t) (noteCause 5 { x with pair := { x.pair with thermalNow := true } }))
    ∧ (∀ t : Int, d.alive = true → (t < 1680 ∨ d.pair.thermalNow = true) → is_ (.tempWarn t) d)
    ∧ (∀ t : Int, d.alive = true → 1920 ≤ t → p.thermalHold = false →
        let y := raise 0x4006 0 (leBytes 2 (uext 16 (Int.fdiv t 16))) e (hot t d)
        let z := if p.spoke then
            forAll ((List.range 16).filter (pchConfigured y)) (toSafe 5 e) (lower y)
          else lower y
        is_ (.thermalShutdown t)
          { z with pwr := { z.pwr with thermalHold := true, nextCause := z.pwr.nextCause ||| 32#7 } }
        ∧ (∀ n < 16, (pchAt z n).gatesLow = true)
        ∧ ∀ n < 16, p.spoke = true → pchConfigured y n = true → (pchAt z n).st = .safe)
    ∧ (∀ t : Int, d.alive = true → (t < 1920 ∨ p.thermalHold = true) → is_ (.thermalShutdown t) d)
    ∧ (∀ t : Int, t < 1600 → is_ (.thermalRecover t) { d with pwr := { p with thermalHold := false } })
    ∧ (∀ t : Int, 1600 ≤ t → is_ (.thermalRecover t) d)
    ∧ (p.powered = true → d.clk.sysLocked = true → is_ .sysPllLoss
        { low with clk := { d.clk with sysLocked := false, sysLosses := inc32 d.clk.sysLosses }
                   pwr := { p with nextCause := p.nextCause ||| 16#7, pllHold := true } })
    ∧ (p.powered = true → d.clk.sysLocked = false → is_ .sysPllLock
        { d with clk := { d.clk with sysLocked := true, timeOn := true }, pwr := { p with pllHold := false } })
    ∧ (p.powered = false ∨ d.clk.sysLocked = false → is_ .sysPllLoss d)
    ∧ (p.powered = false ∨ d.clk.sysLocked = true → is_ .sysPllLock d)
    ∧ (d.alive = true → p.cycleReq = false → d.pair.delayed = none → (p.wdAsked = true ∨ p.hostAsked = true) →
        is_ .pwrCycleReq { low with pwr := { p with
          nextCause := p.nextCause ||| (if p.wdAsked then 64#7 else 4#7), cycleReq := true, cycleHold := true } })
    ∧ (d.alive = true → (p.cycleReq = true ∨ d.pair.delayed ≠ none ∨ (p.wdAsked = false ∧ p.hostAsked = false)) →
        is_ .pwrCycleReq d)
    ∧ (∀ n < 16, (pchAt low n).gatesLow = true)
    ∧ (∀ l, d.alive = true → (p.sramClear = true ∨ d.clk.sysLocked = false) → is_ (.sramClearDone l) d)
    ∧ ∀ l, d.alive = true → p.sramClear = false → d.clk.sysLocked = true →
        let spares := (l.filter (fun q => decide (q.1 < 16) && decide (q.2 < 32))).eraseDups
        is_ (.sramClearDone l) (firstLocked e { d with
          mem := { d.mem with
            badSpares := spares
            unusable := mofList 0 ((List.range 16).map (fun b => (spares.filter (fun q => q.1 = b)).length)) }
          pwr := { p with sramClear := true, setupReady := p.otpRead } })

/-! ## Ethernet (chapter 14) -/

/-- A frame whose first 64 bytes have arrived gets its destination and its timestamp: an address the port does not accept
drops it; on M2 the drawbar takes every frame; MAC control goes to the MAC; an active slot, then the lowest matching rule,
then the default queue take the others (R404, R408, R432). With the link down nothing is received. -/
def Sys2Proof.Machine.ReceivedFrameIsSteered : Prop :=
  ∀ (s : State) (p cyc : Nat) (f : List Byte), s.dev.alive = true →
    let d := s.dev
    let q := portAt d p
    let t : Int := (timeAfter d.clk cyc).toNat + q.rxAdj.toInt * (pow2 36 : Nat)
    let to_ := fun (x : RxDest) => exec (.rxClassify p f cyc) s =
      .next (s.after {} (setPort p { q with rxNow := some (x, BitVec.ofInt 32 (Int.fdiv t (pow2 40 : Nat)), true) } d))
    let mine := f.take 6 = macBytes q.mac ∨ daClass f ≠ 0 ∨ q.promisc = true
    let slot := if p < 2 then d.inp.rx.find? (fun x => slotMatch p x.2 f) else none
    (p < 4 → q.link = true → ¬mine → to_ .daDrop)
    ∧ (p = 2 → q.link = true → mine → to_ .drawbar)
    ∧ (p < 4 → p ≠ 2 → q.link = true → mine → etherType f = 0x8808 → to_ .control)
    ∧ (p < 4 → p ≠ 2 → q.link = true → mine → etherType f ≠ 0x8808 →
        (∀ x, slot = some x → to_ (.stream x.1))
        ∧ (slot = none → ∀ r, q.rules.find? (fun x => ruleMatch x.2 f) = some r →
            to_ (if r.2.action = 8 then .drop else .queue r.2.action r.1))
        ∧ (slot = none → q.rules.find? (fun x => ruleMatch x.2 f) = none → to_ (.queue q.defQueue 0xFF)))
    ∧ (4 ≤ p ∨ q.link = false → exec (.rxClassify p f cyc) s = .next (s.after {} d))

/-- The checks at a frame's end (R405, R413): each kind of bad frame adds one to one counter and goes nowhere; a good
frame is counted as received, by octets, by class of address and by size, and a dropped one also by the reason; a frame
for a stream slot is held for the stream engine. -/
def Sys2Proof.Machine.ReceivedFrameIsChecked : Prop :=
  ∀ (s : State) (p : Nat) (f : List Byte) (fcs code : Bool), s.dev.alive = true →
    let d := s.dev
    let e := envOf {} s
    let q := portAt d p
    let len := f.length + 4
    let none_ := setPort p { q with rxNow := none } d
    let max_ := maxFrame d p
    let is_ := fun (x : Device) => exec (.rxFrameEnd p f fcs code) s = .next (s.after {} x)
    let good := bumpStat p (7 + sizeClass len) 1 e (when (tagged f) (bumpStat p 5 1 e)
      (bumpStat p (2 + daClass f) 1 e (bumpStat p 1 (len / 64) e (bumpStat p 0 1 e none_))))
    let seen := when (decide (p < 2)) (peerStream f) good
    (p < 4 → q.link = true → code = true → is_ (bumpStat p 19 1 e none_))
    ∧ (p < 4 → q.link = true → code = false → len < 64 → is_ (bumpStat p (if fcs then 15 else 16) 1 e none_))
    ∧ (p < 4 → q.link = true → code = false → 64 ≤ len → max_ < len → is_ (bumpStat p (if fcs then 17 else 18) 1 e none_))
    ∧ (p < 4 → q.link = true → code = false → 64 ≤ len → len ≤ max_ → fcs = false → is_ (bumpStat p 14 1 e none_))
    ∧ (p < 4 → q.link = true → code = false → 64 ≤ len → len ≤ max_ → fcs = true →
        (q.rxNow = none → is_ seen)
        ∧ ∀ x ts v, q.rxNow = some (x, ts, v) →
          (x = .daDrop → is_ (bumpStat p 20 1 e seen))
          ∧ (x = .drop → is_ (bumpStat p 21 1 e seen))
          ∧ (x = .control → is_ (pauseFrame p f e seen))
          ∧ (x = .drawbar → is_ (drawbarFrame f (pauseFrame p f e seen)))
          ∧ (∀ n, x = .stream n → is_ (bumpStat p 22 1 e (modPort p (fun y => { y with streamNow := some n }) seen)))
          ∧ ∀ k r, x = .queue k r → is_ (stageFrame p k r f ts v e seen))
    ∧ (4 ≤ p ∨ q.link = false → is_ d)

/-- ReceivedFrameIsSteered and ReceivedFrameIsChecked together: the statements above of these names, each with the rules
that it names. -/
def Obligations.ReceivedFrameIsSteeredAndChecked : Prop :=
  ReceivedFrameIsSteered ∧ ReceivedFrameIsChecked

/-- A PAUSE frame is counted; with PAUSE_EN set and its address the port's it replaces the remaining pause time (R411).
The end of the pause time lets the port send again. LINK_DOWN and LINK_UP raise their events, and a link that comes up
completes a function reset of the port, as its 600 frames do (R406, R407, R414). STAT_CLR moves every counter to its
snapshot (R414), TSQ_POP takes the oldest capture entry (R436). -/
def Sys2Proof.Machine.PortEventsActAsTheirRulesSay : Prop :=
  ∀ (s : State) (p : Nat), s.dev.alive = true → p < 4 →
    let d := s.dev
    let e := envOf {} s
    let q := portAt d p
    let is_ := fun (c : Instr) (x : Port) => exec c s = .next (s.after {} (setPort p x d))
    let down := { q with link := false, rxNow := none, lpi := 0 }
    let up := raise 0x1010 (1 + p) [if p = 3 then 0 else if p = 2 ∨ q.phy = 1 then 1 else 2] e
      (setPort p { q with link := true, resetting := none } d)
    is_ (.pauseExpire p) { q with paused := false, pauseQuanta := 0 }
    ∧ (d.pwr.sramClear = true → is_ (.statClr p) { q with snap := q.stat, stat := [], half := [] })
    ∧ (d.pwr.sramClear = true → q.tsq = [] → is_ (.tsqPop p) { q with tsqW := [0, 0, 0, 0] })
    ∧ (∀ t r, d.pwr.sramClear = true → q.tsq = t :: r → is_ (.tsqPop p) { q with
        tsq := r
        tsqW := [t.htag, t.ts, BitVec.ofNat 32 (t.frac.toNat + 65536 * t.lost + 16777216 * t.cflags.toNat), t.fn] })
    ∧ (q.link = true → exec (.linkDown p) s =
        .next (s.after {} (raise 0x2016 (1 + p) [] e (bumpStat p 41 1 e (setPort p down d)))))
    ∧ (q.link = false → exec (.linkDown p) s = .next (s.after {} d))
    ∧ (q.link = false → d.pwr.quiet = false → q.resetting = none → exec (.linkUp p) s = .next (s.after {} up))
    ∧ (q.link = false → d.pwr.quiet = false → ∀ u n, q.resetting = some (u, n) →
        exec (.linkUp p) s = .next (s.after {} (finishUid u 0 [] e up)))
    ∧ (q.link = true ∨ d.pwr.quiet = true → exec (.linkUp p) s = .next (s.after {} d))
    ∧ (∀ u n, q.resetting = some (u, n) → 600 ≤ n → exec (.portResetTimeout p) s =
        .next (s.after {} (finishUid u 0 [] e (setPort p { q with resetting := none } d))))
    ∧ (∀ u n, q.resetting = some (u, n) → n < 600 → exec (.portResetTimeout p) s = .next (s.after {} d))
    ∧ (q.resetting = none → exec (.portResetTimeout p) s = .next (s.after {} d))
    ∧ ∀ f : List Byte,
        let mine := f.take 6 = [0x01, 0x80, 0xC2, 0, 0, 1] ∨ f.take 6 = macBytes q.mac
        let n := bfld f (l3Off f + 2) 2
        (etherType f ≠ 0x8808 ∨ bfld f (l3Off f) 2 ≠ 1 → pauseFrame p f e d = d)
        ∧ (etherType f = 0x8808 → bfld f (l3Off f) 2 = 1 →
          (¬mine ∨ q.pauseEn = false → pauseFrame p f e d = bumpStat p 6 1 e d)
          ∧ (mine → q.pauseEn = true → pauseFrame p f e d = bumpStat p 38 n e
              (modPort p (fun x => { x with paused := decide (n ≠ 0), pauseQuanta := n }) (bumpStat p 6 1 e d))))

/-- A port starts a frame at a boundary where it sends nothing and is not paused: media before host queues 7 to 0; a
port in low-power idle wakes first (R410, R412). A frame that the link cannot take is discarded, counted, and completes
as FLUSHED where it is the host's (R406). -/
def Sys2Proof.Machine.PortSendsMediaBeforeHostFrames : Prop :=
  ∀ (s : State) (p : Nat) (h : HostView), s.dev.alive = true → p < 4 →
    let d := s.dev
    let e := envOf h s
    let q := portAt d p
    let n := ntxNext p e [7, 6, 5, 4, 3, 2, 1, 0] d
    let is_ := fun (x : Device) => exec (.txStart p h) s = .next (s.after h x)
    (q.txNow.isSome = true ∨ q.paused = true → is_ d)
    ∧ (q.txNow = none → q.paused = false → q.lpi = 0 →
        (∀ m r, q.media = m :: r → q.link = true → is_ (setPort p { q with media := r, txNow := some (m, none) } d))
        ∧ (∀ m r, q.media = m :: r → q.link = false → is_ (bumpStat p 39 1 e (setPort p { q with media := r } d)))
        ∧ (q.media = [] → n.2 = none → is_ n.1)
        ∧ (q.media = [] → ∀ f, n.2 = some f → q.link = true →
            is_ (modPort p (fun y => { y with txNow := some (f.bytes, some f) }) n.1))
        ∧ (q.media = [] → ∀ f, n.2 = some f → q.link = false →
            is_ (bumpStat p 39 1 e (ntxDone p f.queue f.span 3 e n.1))))
    ∧ (q.txNow = none → q.paused = false → q.lpi = 1 → txReady p e d = true → is_ (setPort p { q with lpi := 2 } d))
    ∧ (q.txNow = none → q.paused = false → q.lpi = 1 → txReady p e d = false → is_ d)
    ∧ (q.txNow = none → q.paused = false → 2 ≤ q.lpi → is_ d)

/-- A departing frame is padded to 60 bytes, counted by octets, class and size, and a host frame completes with SENT;
where it asks for ONE_STEP and can have it, its time of departure is written into it; where it asks for TWO_STEP, its
capture enters the queue (R279, R405, R413, R434 to R437). A departure where nothing is sent does nothing. -/
def Sys2Proof.Machine.DepartingFrameIsCountedAndStamped : Prop :=
  ∀ (s : State) (p cyc : Nat), s.dev.alive = true → p < 4 →
    let d := s.dev
    let e := envOf {} s
    let q := portAt d p
    let t := BitVec.ofInt 72 ((timeAfter d.clk cyc).toNat + q.txAdj.toInt * (pow2 36 : Nat))
    let is_ := fun (x : Device) => exec (.txDeparture p cyc) s = .next (s.after {} x)
    let wire := fun (b : List Byte) => b ++ zeros (60 - b.length)
    let sent := fun (w : List Byte) (m : Bool) =>
      bumpStat p (31 + sizeClass (w.length + 4)) 1 e (when m (bumpStat p 30 1 e) (bumpStat p (27 + daClass w) 1 e
        (bumpStat p 26 ((w.length + 4) / 64) e (bumpStat p 25 1 e
          (setPort p { q with txNow := none, sentLog := q.sentLog ++ [w] } d)))))
    (q.txNow = none → is_ d)
    ∧ (∀ b, q.txNow = some (b, none) → is_ (sent (wire b) true))
    ∧ ∀ b f, q.txNow = some (b, some f) →
        let two := fun (x : Device) => when (f.flags.getLsbD 3) (twoStep p t f e) x
        let fail := oneStepReason d f
        (f.flags.getLsbD 2 = false → is_ (ntxDone p f.queue f.span 1 e (two (sent (wire b) false))))
        ∧ (f.flags.getLsbD 2 = true → fail = 0 →
            is_ (ntxDone p f.queue f.span 1 e (two (sent (wire (oneStep d t f)) false))))
        ∧ (f.flags.getLsbD 2 = true → fail ≠ 0 →
            is_ (ntxDone p f.queue f.span 1 e (two (raiseLim p 0x2019 (1 + p) [BitVec.ofNat 8 fail] e
              (modPort p (fun y => { y with oneStepFail := inc32 y.oneStepFail }) (sent (wire b) false))))))

/-- PortSendsMediaBeforeHostFrames and DepartingFrameIsCountedAndStamped together: the statements above of these names,
each with the rules that it names. -/
def Obligations.PortSendsAndStampsItsFrames : Prop :=
  PortSendsMediaBeforeHostFrames ∧ DepartingFrameIsCountedAndStamped

/-- Low-power idle of M3, EEE_LPI_ENTER and EEE_WAKE (R412), and OBJECT_AUDIO_QUEUE: the packets of an object-audio slot
are queued once in a frame, after every object in them has been written and every object-audio slot of a lower number
has been served, silence while nothing renders (R421, R424; when they may be queued: log 137). -/
def Sys2Proof.Machine.LowPowerIdleAndObjectAudioFollowTheirSources : Prop :=
  ∀ s : State, s.dev.alive = true →
    let d := s.dev
    let e := envOf {} s
    let q := portAt d 3
    let quiet := q.eeeEn = true ∧ q.link = true ∧ q.lpi = 0 ∧ q.txNow = none ∧ txReady 3 e d = false
    (quiet → exec .eeeLpiEnter s = .next (s.after {} (bumpStat 3 40 1 e (setPort 3 { q with lpi := 1 } d))))
    ∧ (¬quiet → exec .eeeLpiEnter s = .next (s.after {} d))
    ∧ (q.lpi = 2 → (q.paused = true ∨ q.txNow.isSome = true) →
        exec .eeeWake s = .next (s.after {} (setPort 3 { q with lpi := 0 } d)))
    ∧ (q.lpi = 2 → q.paused = false → q.txNow = none →
        exec .eeeWake s = .next (s.after {} (txBegin 3 e (setPort 3 { q with lpi := 0 } d))))
    ∧ (q.lpi ≠ 2 → exec .eeeWake s = .next (s.after {} d))
    ∧ ∀ slot, slot < 128 →
        let x := mget {} d.eth.tx1 slot
        let objs := (List.range x.ch).map (x.first + ·)
        let ready := d.pwr.spoke = false ∧ x.format = 4 ∧ slot ∉ d.eth.queued
          ∧ (audioRuns d = false ∨ ∀ o ∈ objs, (objAt d o).written = true ∨ nObj d ≤ o)
          ∧ ∀ y ∈ d.eth.tx1, y.2.format = 4 → y.1 < slot → y.1 ∈ d.eth.queued
        let chans := objs.map (fun o =>
          if audioRuns d = true ∧ (objAt d o).reemit ≠ [] ∧ d.inp.streamReset ≠ some (s.fc.fn - 1) then
            (objAt d o).reemit else List.replicate (nSmp d) 0)
        let sent := sendAaf slot x 1 chans d
        (ready → exec (.objectAudioQueue slot) s =
          .next (s.after {} { sent with eth := { sent.eth with queued := sent.eth.queued ++ [slot] } }))
        ∧ (¬ready → exec (.objectAudioQueue slot) s = .next (s.after {} d))

/-- PortEventsActAsTheirRulesSay and LowPowerIdleAndObjectAudioFollowTheirSources together: the statements above of
these names, each with the rules that it names. -/
def Obligations.PortEventsAndLowPowerIdleFollowTheirRules : Prop :=
  PortEventsActAsTheirRulesSay ∧ LowPowerIdleAndObjectAudioFollowTheirSources

/-- The checks of an AAF packet for a slot (R417, R418): version 0, a 32, 24 or 16-bit format, the media rate, whole
samples within the frame, tv or sp set, the authority field where the slot names a hub. -/
def Sys2Proof.Machine.AafSound (d : Device) (f : List Byte) (x : RxSlot) : Prop :=
  let o := l3Off f
  let fmt := fld f (o + 16) 1
  let w := if fmt = 2 then 4 else if fmt = 3 then 3 else 2
  let cpf := bfld f (o + 17) 2 % 1024
  let len := bfld f (o + 20) 2
  nth 0 f o = 2 ∧ fld f (o + 1) 1 / 16 % 8 = 0 ∧ 2 ≤ fmt ∧ fmt ≤ 4
    ∧ fld f (o + 17) 1 / 16 = (if (cfg d).fs96 then 7 else 5)
    ∧ cpf ≠ 0 ∧ len % (cpf * w) = 0 ∧ o + 24 + len + (if x.hub = 0 then 0 else 8) ≤ f.length
    ∧ ((nth 0 f (o + 1)).getLsbD 0 = true ∨ (nth 0 f (o + 22)).getLsbD 4 = true)
    ∧ (x.hub = 0 ∨ ((authAt f (authOff f)).hubB = decide (x.hub = 2) ∧ authTag d (authAt f (authOff f)) = true))

/-- The packet that a port holds for an AAF slot goes: one that breaks its checks is counted in RX_STREAM_BAD; a second
copy of a sequence number on its path is discarded uncounted; a timed one places its samples from the period its
timestamp names plus RX_OFFSET on, the slot's channels alone (R122, R417, R418). Nothing held, or another format:
nothing happens. -/
def Sys2Proof.Machine.AafPacketFillsTheSlotsFrames : Prop :=
  ∀ (s : State) (p : Nat) (f : List Byte), s.dev.alive = true → p < 2 →
    let d := s.dev
    let e := envOf {} s
    let n := nSmp d
    let gone := modPort p (fun x => { x with streamNow := none }) d
    let is_ := fun (x : Device) => exec (.aafRx p f) s = .next (s.after {} x)
    ((portAt d p).streamNow = none → is_ d)
    ∧ ∀ slot, (portAt d p).streamNow = some slot →
        let x := slotAt d slot
        let o := l3Off f
        let fmt := fld f (o + 16) 1
        let w := if fmt = 2 then 4 else if fmt = 3 then 3 else 2
        let cpf := bfld f (o + 17) 2 % 1024
        let m := bfld f (o + 20) 2 / (cpf * w)
        let q := nth 0 f (o + 2)
        let st := mget {} d.inp.rxSeq slot
        let prev := if p = 0 then st.seq0 else st.seq1
        let cont := if p = 0 then st.next0 else st.next1
        let fits := (x.format = 1 ∨ x.format = 4 ∨ x.format = 5) ∧ slotMatch p x f = true
        let timed := (nth 0 f (o + 1)).getLsbD 0 = true
        let fill := fun (st2 : RxSeq) (k : BitVec 32) (i : Nat) =>
          let next : BitVec 32 × Nat := (k + BitVec.ofNat 32 ((i + m) / n), (i + m) % n)
          let st3 := if p = 0 then { st2 with next0 := some next } else { st2 with next1 := some next }
          let frames := (List.range ((i + m + n - 1) / n)).map (fun (j : Nat) => k + BitVec.ofNat 32 j)
          rxSamples p slot x k i (pcmBlock f (o + 24) w cpf m) e
            (hubPacket x.hub (authAt f (authOff f)) (x.format = 5 && !hasHubObj d) frames (setSeq slot st3 gone))
        (¬fits → is_ d)
        ∧ (fits → ¬AafSound d f x → is_ (bumpStat p 23 1 e gone))
        ∧ (fits → AafSound d f x → takeSeq false p q st = none → is_ gone)
        ∧ (fits → AafSound d f x → ∀ st2, takeSeq false p q st = some st2 →
            (timed → let at_ := aafPeriod gone e (bfld f (o + 12) 4)
              is_ (fill st2 (at_.1 + BitVec.ofNat 32 (rxOffset x)) at_.2))
            ∧ (¬timed → prev.map (· + 1) = some q → ∀ k i, cont = some (k, i) → is_ (fill st2 k i))
            ∧ (¬timed → (prev.map (· + 1) ≠ some q ∨ cont = none) → is_ (bumpStat p 23 1 e gone)))

/-- An AES67 packet and a metadata packet of the slot a port holds one for (R122, R124, R420, R422): checked, counted in
RX_STREAM_BAD where it fails, its samples placed at the frame nearest to FN that its RTP timestamp names, its records
offered one by one. -/
def Sys2Proof.Machine.RtpAndMetadataPacketsReachTheirSlots : Prop :=
  ∀ (s : State) (p : Nat) (f : List Byte), s.dev.alive = true → p < 2 →
    let d := s.dev
    let e := envOf {} s
    let gone := modPort p (fun x => { x with streamNow := none }) d
    let rtp := fun (x : Device) => exec (.aes67Rx p f) s = .next (s.after {} x)
    let md := fun (x : Device) => exec (.metadataRx p f) s = .next (s.after {} x)
    ((portAt d p).streamNow = none → rtp d ∧ md d)
    ∧ ∀ slot, (portAt d p).streamNow = some slot →
        let x := slotAt d slot
        let o := l3Off f
        (x.format ≠ 2 ∨ slotMatch p x f = false → rtp d)
        ∧ (x.format = 2 → slotMatch p x f = true →
            let u := o + 20
            let r := o + 28
            let udp := bfld f (u + 4) 2
            let b := fld f r 1
            let w := if x.streamId.toNat / pow2 56 = 1 then 2 else 3
            let pt := x.streamId.toNat / pow2 48 % 256
            let start := r + 12 + 4 * (b % 16) + (if bit b 4 then 4 + 4 * bfld f (r + 12 + 4 * (b % 16) + 2) 2 else 0)
            let stop := u + udp - (if bit b 5 then fld f (u + udp - 1) 1 else 0)
            let sound := fld f o 1 = 0x45 ∧ onesSum (sub f o 20) = 0xFFFF ∧ bfld f (o + 6) 2 % 16384 = 0
              ∧ o + bfld f (o + 2) 2 ≤ f.length ∧ udp + 20 ≤ bfld f (o + 2) 2 ∧ 20 ≤ udp
              ∧ (bfld f (u + 6) 2 = 0 ∨ onesSum (sub f (o + 12) 8 ++ [0, 17] ++ beBytes 2 udp ++ sub f u udp) = 0xFFFF)
              ∧ b / 64 = 2 ∧ (pt = 0 ∨ fld f (r + 1) 1 % 128 = pt) ∧ start ≤ stop ∧ (stop - start) % (w * x.ch) = 0
            let t := (bfld f (r + 4) 4 + pow2 32 - x.rtpOff.toNat) % pow2 32
            let k := nearFrame (nSmp d) s.fc.fn (t / nSmp d) + BitVec.ofNat 32 (rxOffset x)
            (¬sound → rtp (bumpStat p 23 1 e gone))
            ∧ (sound → rtp (rxSamples p slot x k (t % nSmp d)
                (pcmBlock f start w x.ch ((stop - start) / (w * x.ch))) e gone)))
        ∧ (x.format ≠ 3 ∨ slotMatch p x f = false → md d)
        ∧ (x.format = 3 → slotMatch p x f = true →
            let len := bfld f (o + 0x16) 2
            let n := (len - 8) / 32
            let recs := (List.range n).map (fun i => sub f (o + 0x20 + 32 * i) 32)
            let a := authAt f (o + 0x18)
            let sound := nth 0 f o = 0x6F ∧ fld f (o + 1) 1 / 16 % 8 = 0 ∧ (nth 0 f (o + 1)).getLsbD 0 = true
              ∧ sub f (o + 0x10) 6 = macBytes Config.vendor ∧ len = 8 + 32 * n ∧ 1 ≤ n ∧ n ≤ 44
              ∧ o + 0x18 + len ≤ f.length ∧ ((recs.map recStamp).eraseDups).length = 1
              ∧ (x.hub = 0 ∨ (a.hubB = decide (x.hub = 2) ∧ authTag d a = true))
            let seq := takeSeq true p (nth 0 f (o + 2)) (mget {} d.inp.rxSeq slot)
            (¬sound → md (bumpStat p 23 1 e gone))
            ∧ (sound → seq = none → md gone)
            ∧ (sound → hasHubObj d = false → ∀ st, seq = some st →
                md (forAll recs (fun r x' => recordIn .stream x.hub r e x') (setSeq slot st gone)))
            ∧ (sound → hasHubObj d = true → ∀ st, seq = some st →
                let cands := ((recs.map recStamp).eraseDups).map (fun k => (k, a.epoch, a.fit))
                let heard := fun (h : HubSeen) => { h with cands := h.cands ++ cands }
                let y := setSeq slot st gone
                let offer := fun (y : Device) => md (forAll recs (fun r x' => recordIn .stream x.hub r e x') y)
                (x.hub = 1 → offer { y with pair := { y.pair with hubA := heard y.pair.hubA } })
                ∧ (x.hub = 2 → offer { y with pair := { y.pair with hubB := heard y.pair.hubB } })
                ∧ (x.hub ≠ 1 → x.hub ≠ 2 → offer y)))

/-- AafPacketFillsTheSlotsFrames and RtpAndMetadataPacketsReachTheirSlots together: the statements above of these names,
each with the rules that it names. -/
def Obligations.StreamPacketsReachTheirSlots : Prop :=
  AafPacketFillsTheSlotsFrames ∧ RtpAndMetadataPacketsReachTheirSlots

/-! ## AES3 ports (chapter 16) and received sources (chapter 4) -/

/-- AIN_LOCK: a receiver in ACQUIRE locks and raises its event; in SLIP mode its buffer fills at the media rate, and
another rate is reported. AIN_LOST: a locked one returns to ACQUIRE, counts the loss, raises its event and fades its
sources out (R132, R457, R458), and AIN0 as the media reference loses that too (R449); RATIO_LOCK makes a locked
receiver in BRIDGE mode audible (R130, R131). -/
def Sys2Proof.Machine.ReceiverLocksAndLosesItsSignal : Prop :=
  ∀ (s : State) (r : Nat), s.dev.alive = true → r < 8 →
    let d := s.dev
    let e := envOf {} s
    let p := ainAt d r
    let m := ainMedAt d r
    let reference := fun (x : Device) => if r = 0 ∧ x.clk.ref = 2 then refLost 4 e x else x
    (∀ rate, p.st = .acquire → rate ≤ 6 → exec (.ainLock r rate) s = .next (s.after {} (slipLock r e
        (raise 0x1014 (0x08 + r) [BitVec.ofNat 8 rate] e
          (setAin r { p with st := .locked, rate := rate, parityRun := 0, frames := 0 } d)))))
    ∧ (∀ rate, p.st ≠ .acquire ∨ 6 < rate → exec (.ainLock r rate) s = .next (s.after {} d))
    ∧ (∀ c, p.st = .locked → 1 ≤ c → c ≤ 4 → exec (.ainLost r c) s = .next (s.after {} (reference (ainMute r e
        (raiseLim r 0x201C (0x08 + r) [BitVec.ofNat 8 c] e
          (setAin r { p with st := .acquire, losses := inc32 p.losses, frames := 0 } d))))))
    ∧ (∀ c, p.st ≠ .locked ∨ c = 0 ∨ 4 < c → exec (.ainLost r c) s = .next (s.after {} d))
    ∧ (p.st = .locked → m.slip = false → m.bridge.locked = false → m.bridge.audible = false →
        exec (.ratioLock r) s = .next (s.after {} (raise 0x100B (0x08 + r) [1] e (modAinMed r (fun x => { x with
          bridge := { locked := true, fade := 1, audible := true }, bridgeLock := inc32 m.bridgeLock }) d))))
    ∧ (p.st ≠ .locked ∨ m.slip = true ∨ m.bridge.locked = true ∨ m.bridge.audible = true →
        exec (.ratioLock r) s = .next (s.after {} d))
    ∧ ∀ x, (ainMedAt x r = m → m.slip = false → slipLock r e x = x)
        ∧ (ainMedAt x r = m → m.slip = true → ainAtMediaRate x r = true → slipLock r e x =
            modAinMed r (fun y => { y with
              buf := { s0 := List.replicate 16 0, s1 := List.replicate 16 0, fade := 1, audible := true } }) x)
        ∧ (ainMedAt x r = m → m.slip = true → (ainAt x r).st = .locked → ainAtMediaRate x r = false → slipLock r e x =
            let y := modAinMed r (fun z => { z with buf := {}, rateMismatch := inc32 z.rateMismatch }) x
            raise 0x2007 (0x08 + r) (leBytes 4 (nth 0 aesRates (ainAt y r).rate)) e y)

/-- AES3_FRAME_RX (R456 to R461): a frame of a locked receiver. Each subframe delivers its sample, the previous one
where its parity fails; V = 1 and parity failures are counted; the Z preamble starts a block and takes the parameters;
the C and U bits gather, and at the 192nd frame the block is judged. A Z inside a block and the fourth parity failure of
a block lose the signal (R457). In SLIP mode the samples enter the buffer, which keeps the newest N + 32 (R132). A
receiver that is not locked takes nothing of the frame. -/
def Sys2Proof.Machine.ReceivedAesFrameIsTakenIn : Prop :=
  ∀ (s : State) (r : Nat) (z : Bool) (f1 f2 : SubFrame), s.dev.alive = true → r < 8 →
    let e := envOf {} s
    let is_ := fun (x : Device) => exec (.aes3FrameRx r z f1 f2) s = .next (s.after {} x)
    let reference := fun (x : Device) => if r = 0 ∧ x.clk.ref = 2 then refLost 4 e x else x
    let lost := fun (c : Nat) (x : Device) => reference (ainMute r e (raiseLim r 0x201C (0x08 + r) [BitVec.ofNat 8 c] e
      (setAin r { ainAt x r with st := .acquire, losses := inc32 (ainAt x r).losses, frames := 0 } x)))
    let stray := z = true ∧ (ainAt s.dev r).st = .locked ∧ (ainAt s.dev r).frames ≠ 0
    let d := when z (ainBlockStart r e) s.dev
    let p := ainAt d r
    let bad := (if f1.parityOk then 0 else 1) + (if f2.parityOk then 0 else 1)
    let n := if z then 1 else if p.frames = 0 then 0 else p.frames + 1
    let inB := decide (0 < n ∧ n ≤ 192)
    let a := subRx z s.fc.fn inB f1 p.sub0
    let b := subRx z s.fc.fn inB f2 p.sub1
    let counted := setAin r { p with parityErr := add32 p.parityErr bad, parityRun := p.parityRun + bad
                                     frames := if 192 ≤ n then 0 else n } d
    let x := if n = 192 then csBlock r 0 p.checkNow p.naNow e a.1 counted else (a.1, counted)
    let y := if n = 192 then csBlock r 1 p.checkNow p.naNow e b.1 x.2 else (b.1, x.2)
    let done := modAin r (fun q => { q with sub0 := x.1, sub1 := y.1 }) y.2
    let m := ainMedAt done r
    let full := nSmp done + 32 ≤ m.buf.s0.length
    let put := fun (l : List Int) (v : Int) => if full then l.drop 1 ++ [v] else l ++ [v]
    (stray → is_ (lost 2 s.dev))
    ∧ (¬stray →
        (p.st ≠ .locked → is_ d)
        ∧ (p.st = .locked → 4 ≤ p.parityRun + bad → is_ (lost 4 done))
        ∧ (p.st = .locked → p.parityRun + bad < 4 → (m.slip = false ∨ m.buf.audible = false) → is_ done)
        ∧ (p.st = .locked → p.parityRun + bad < 4 → m.slip = true → m.buf.audible = true →
            is_ (modAinMed r (fun q => { q with
              slips := if full then inc32 q.slips else q.slips
              buf := { q.buf with s0 := put q.buf.s0 a.2, s1 := put q.buf.s1 b.2 } }) done)))
    ∧ (∀ sub : AinSub, a.2 = (if f1.parityOk then f1.sample else p.sub0.last)
        ∧ b.2 = (if f2.parityOk then f2.sample else p.sub1.last)
        ∧ (subRx z s.fc.fn inB f1 sub).1.v1 = (if f1.v then inc32 sub.v1 else sub.v1))

/-- ReceiverLocksAndLosesItsSignal and ReceivedAesFrameIsTakenIn together: the statements above of these names, each
with the rules that it names. -/
def Obligations.AesReceiverTakesItsFrames : Prop :=
  ReceiverLocksAndLosesItsSignal ∧ ReceivedAesFrameIsTakenIn

/-- CS_COMMIT and U_COMMIT ask for a block; AOUT_BLOCK_START: a transmitter takes committed blocks in one step and
clears the commit, sends its channel status with the CRCC of a professional block, that of the first subframe for both
where it is asked, and a reset whose silence has ended completes there; TX_UNDERRUN: a frame that finds its buffer empty
sends the last sample again and is counted. In the quiet state a transmitter sends nothing (R463 to R465, R467, R487).
-/
def Obligations.TransmitterCommitsAtItsBlockStart : Prop :=
  ∀ (s : State) (t : Nat), s.dev.alive = true → t < 8 →
    let d := s.dev
    let e := envOf {} s
    let p := aoutAt d t
    let is_ := fun (i : Instr) (x : Device) => exec i s = .next (s.after {} x)
    let sends := p.en = true ∧ d.pwr.quiet = false
    let take := fun (x : AoutSub) => { x with
      csLive := if x.csCommit then x.csStg else x.csLive, csCommit := false
      uLive := if x.uCommit then x.uStg else x.uLive, uCommit := false }
    let a := take p.s0
    let b := take p.s1
    let dry := fun (x : AoutSub) => { x with last := (aoutShape x.buf.length p.mode x.buf).getLast?.getD x.last, buf := [] }
    let block := setAout t { p with
      s0 := { a with csOut := csWire a.csLive, uOut := a.uLive }
      s1 := { b with csOut := csWire (if p.csSame then a.csLive else b.csLive), uOut := b.uLive }
      cut := false, blockCut := if p.cut then inc32 p.blockCut else p.blockCut } d
    let out := setAout t { p with s0 := dry p.s0, s1 := dry p.s1, underrun := inc32 p.underrun } d
    (d.pwr.sramClear = true →
      is_ (.csCommit t 0) (setAout t { p with s0 := { p.s0 with csCommit := true } } d)
      ∧ is_ (.csCommit t 1) (setAout t { p with s1 := { p.s1 with csCommit := true } } d)
      ∧ is_ (.uCommit t 0) (setAout t { p with s0 := { p.s0 with uCommit := true } } d)
      ∧ is_ (.uCommit t 1) (setAout t { p with s1 := { p.s1 with uCommit := true } } d))
    ∧ (∀ n, 2 ≤ n → is_ (.csCommit t n) d ∧ is_ (.uCommit t n) d)
    ∧ (sends → p.resetRidx = none → is_ (.aoutBlockStart t) block)
    ∧ (sends → (p.reset = 1 ∨ p.reset = 2) → is_ (.aoutBlockStart t) block)
    ∧ (sends → (p.reset = 0 ∨ p.reset = 3) → ∀ u, p.resetRidx = some u →
        is_ (.aoutBlockStart t) (finishUid u 0 [] e (modAout t (fun x => { x with resetRidx := none }) block)))
    ∧ (¬sends → is_ (.aoutBlockStart t) d)
    ∧ (sends → is_ (.txUnderrun t) (raiseLim t 0x201E (0x10 + t) (leBytes 4 (aoutAt out t).underrun) e out))
    ∧ (¬sends → is_ (.txUnderrun t) d)

/-- STREAM_REVIVE returns a MUTED channel with REVIVE_FRAMES complete frames to LIVE, faded in, and replaces its
source's frame (R125, R126, R128); OWNER_FRAME_MISSING: the owner's missing frame of a routed local source marks frame
FN − 1 as not comparable (R135). -/
def Obligations.SourcesReviveAndMissTheirOwner : Prop :=
  ∀ s : State, s.dev.alive = true →
    let d := s.dev
    (∀ src m, src / 4096 ≠ 4 → (rxMaps d.inp.rxLive).find? (fun x => x.key = src) = some m →
        let c := chanAt d src
        let back := { c with live := true, streak := 0, frame := fadeInFrame (nSmp d) c.raw }
        let x := setChan src back d
        let due := c.live = false ∧ (mget {} d.inp.rxLive m.slot).revive ≤ c.streak
        (due → (src / 65536 = 0 ∨ mget 0 d.pair.supplier (src % 65536) = src / 65536) → exec (.streamRevive src) s =
          .next (s.after {} { x with inp := { x.inp with
            sources := mset [] x.inp.sources (src % 65536) back.frame } }))
        ∧ (due → src / 65536 ≠ 0 → mget 0 d.pair.supplier (src % 65536) ≠ src / 65536 →
            exec (.streamRevive src) s = .next (s.after {} x))
        ∧ (¬due → exec (.streamRevive src) s = .next (s.after {} d)))
    ∧ (∀ src, src / 4096 ≠ 4 → (rxMaps d.inp.rxLive).find? (fun x => x.key = src) = none →
        exec (.streamRevive src) s = .next (s.after {} d))
    ∧ (∀ src, src / 4096 = 4 →
        let h := src % 4096 / 64
        let a := mget {} d.ring.ain h
        let c := mget {} a.chans (src % 64)
        let back := { c with live := true, streak := 0, frame := fadeInFrame (nSmp d) c.raw }
        let due := c.live = false ∧ ringRevive (ringAt d (16 + h)) ≤ c.streak
        (due → exec (.streamRevive src) s = .next (s.after {} { d with
          ring := { d.ring with ain := mset {} d.ring.ain h { a with chans := mset {} a.chans (src % 64) back } }
          inp := { d.inp with sources := mset [] d.inp.sources src back.frame } }))
        ∧ (¬due → exec (.streamRevive src) s = .next (s.after {} d)))
    ∧ ∀ src,
        let need := paired d = true ∧ d.pwr.spoke = false ∧ ownsSealed d src = false ∧ src ∈ localSrcs ∧ srcRouted d src = true
          ∧ ∀ f ∈ d.inp.ownerFrames, f.1 = src → f.2.1 ≠ s.fc.fn - 2
        (need → s.fc.fn - 1 ∉ d.inp.nc → exec (.ownerFrameMissing src) s =
          .next (s.after {} { d with inp := { d.inp with nc := d.inp.nc ++ [s.fc.fn - 1] } }))
        ∧ (need → s.fc.fn - 1 ∈ d.inp.nc → exec (.ownerFrameMissing src) s = .next (s.after {} d))
        ∧ (¬need → exec (.ownerFrameMissing src) s = .next (s.after {} d))

/-! ## Set-up registers and the crossbar (chapters 12, 18) -/

/-- REGISTER_WRITE, once the SRAM is cleared (R357). A write of four bytes at a multiple of four acts on its register,
one of eight bytes at a multiple of eight on two, lower address first; any other size is discarded and sets ACC_ERR
(R497). Bits written as 1 clear in SETUP_STATUS; a range line stores the nearer limit and sets CLAMPED (R498); a split
field takes effect at the write of its high half (R499); ring bases stand while RING_GO is set (R507); a receive rule's
words stand while it is enabled (R523); staging blocks stand while their commit is pending (R463). Offsets that no
register has ignore a write. -/
def Obligations.RegisterWritesActOnTheirRegister : Prop :=
  ∀ s : State, s.dev.alive = true → s.dev.pwr.sramClear = true →
    let d := s.dev
    let e := envOf {} s
    let refused := fun (x : Device) => { x with pwr := { x.pwr with accErr := true } }
    let is_ := fun (off : Nat) (v : BitVec 32) (x : Device) =>
      exec (.registerWrite off 4 (v.setWidth 64)) s = .next (s.after {} x)
    (∀ off v, off % 4 = 0 → off + 4 ≤ 0x100000 → is_ off v (regWrite off v e d))
    ∧ (∀ off (v : BitVec 64), off % 8 = 0 → off + 8 ≤ 0x100000 → exec (.registerWrite off 8 v) s = .next (s.after {}
        (regWrite (off + 4) (v.extractLsb' 32 32) e (regWrite off (v.extractLsb' 0 32) e d))))
    ∧ (∀ off size v, ¬(size = 4 ∧ off % 4 = 0) → ¬(size = 8 ∧ off % 8 = 0) → off + size ≤ 0x100000 →
        exec (.registerWrite off size v) s = .next (s.after {} (refused d)))
    ∧ (∀ off size v, 0x100000 < off + size → exec (.registerWrite off size v) s = .next (s.after {} d))
    ∧ (∀ off v, off % 4 = 0 → ((0x604 ≤ off ∧ off < 0x1000) ∨ (0x5000 ≤ off ∧ off < 0x10000)
        ∨ (0x20000 ≤ off ∧ off + 4 ≤ 0x100000)) → is_ off v d)
    ∧ (∀ v, is_ 0x020 v { d with pwr := { d.pwr with
        clamped := d.pwr.clamped && !v.getLsbD 17, accErr := d.pwr.accErr && !v.getLsbD 16
        quietRefused := d.pwr.quietRefused && !v.getLsbD 12, ringErr := d.pwr.ringErr && !v.getLsbD 11 } })
    ∧ (∀ v, is_ 0x600 v { d with mem := { d.mem with patrolEn := v.getLsbD 0 } })
    ∧ (∀ v : BitVec 32,
        (v.toNat ≤ 65535 → is_ 0x440 v { d with clk := { d.clk with kp := v.toNat } })
        ∧ (65535 < v.toNat → is_ 0x440 v (refused d))
        ∧ (100 ≤ v.toNat → v.toNat ≤ 1000000000 → is_ 0x448 v { d with clk := { d.clk with stepThr := v.toNat } })
        ∧ (v.toNat < 100 → is_ 0x448 v
            { d with clk := { d.clk with stepThr := 100 }, pwr := { d.pwr with clamped := true } })
        ∧ (1000000000 < v.toNat → is_ 0x448 v
            { d with clk := { d.clk with stepThr := 1000000000 }, pwr := { d.pwr with clamped := true } }))
    ∧ (∀ v : BitVec 32,
        (d.ring.go = true → is_ 0x300 v (refused d) ∧ is_ 0x304 v (refused d))
        ∧ (d.ring.go = false → regAt d 0x300 (lowWord d.ring.dbBase.toNat) = 0 →
            is_ 0x304 v { d with ring := { d.ring with dbBase := BitVec.ofNat 64 (v.toNat * pow2 32) } }))
    ∧ (∀ p k w v, p < 4 → k < 64 → 1 ≤ w → w ≤ 5 → (mget {} (portAt d p).rules k).en = true →
        is_ (0x10400 + 0x4000 * p + 32 * k + 4 * w) v (refused d))
    ∧ (∀ t i v, t < 8 → i < 6 → (aoutAt d t).s0.csCommit = true →
        is_ (0x4840 + 0x100 * t + 4 * i) v (setAout t { aoutAt d t with stageBusy := true } d))
    ∧ (∀ t i v, t < 8 → i < 6 → (aoutAt d t).s0.csCommit = false →
        is_ (0x4840 + 0x100 * t + 4 * i) v (setAout t { aoutAt d t with
          s0 := { (aoutAt d t).s0 with csStg := putWord (aoutAt d t).s0.csStg i v } } d))
    ∧ (∀ c v, c < 40 →
        (16 ≤ v.toNat → is_ (0x2104 + 16 * c) v (refused d))
        ∧ (d.regs.plain.find? (fun q => q.1 == 0x2100 + 16 * c) = some (0x2100 + 16 * c, 0) → v = 4 →
            is_ (0x2104 + 16 * c) v
              (modDec c (fun y => { y with gainU := 0x400000000 }) (setReg (0x2100 + 16 * c) 0 d))))

/-- XBAR_REQUEST: a request waits at the target that its master and its address name, with its QoS and its place in
arrival order; one of a master in reset, or before the SRAM is cleared, is not issued (R357, R369 to R371, R379).
XBAR_GRANT: a target without a transaction in service grants a waiting request that no other eligible one outranks,
higher QoS first, then the round robin; the request leaves the waiting list and is in service (R374).
MASTER_RESET_RELEASE: a master is released once no burst of it is in service (R379). -/
def Obligations.CrossbarGrantsTheHighestQos : Prop :=
  ∀ s : State, s.dev.alive = true →
    let d := s.dev
    (∀ r, d.pwr.sramClear = true → r.master < 18 → 1 ≤ r.words → r.words ≤ 512 → r.master ∉ d.xbar.resetting →
        let t := targetOf d r
        let p : XPending := { req := r, qos := qosOf d r, order := d.xbar.count }
        let w := { d with xbar := { d.xbar with
          count := d.xbar.count + 1, waiting := mset [] d.xbar.waiting t (waitingAt d t ++ [p]) } }
        let parked := waitingAt d t = [] ∧ parkedOn t = some r.master
        (2 ≤ t → isLane t = false → ¬parked → exec (.xbarRequest r) s = .next (s.after {} w))
        ∧ (2 ≤ t → (isLane t = true ∨ parked) → exec (.xbarRequest r) s = .next (s.after {} (xbarGrant t w)))
        ∧ (t < 2 → ¬parked → exec (.xbarRequest r) s = .next (s.after {} (selfRefWake t w)))
        ∧ (t < 2 → parked → exec (.xbarRequest r) s = .next (s.after {} (xbarGrant t (selfRefWake t w)))))
    ∧ (∀ r, (d.pwr.sramClear = false ∨ 18 ≤ r.master ∨ r.words = 0 ∨ 512 < r.words ∨ r.master ∈ d.xbar.resetting) →
        exec (.xbarRequest r) s = .next (s.after {} d))
    ∧ (∀ t, t < 25 → isLane t = false → serving d t = none → choose d t = none →
        exec (.xbarGrant t) s = .next (s.after {} d))
    ∧ (∀ t p, t < 25 → isLane t = false → serving d t = none → choose d t = some p →
        exec (.xbarGrant t) s = .next (s.after {} (grant t p d))
        ∧ p ∈ waitingAt d t ∧ eligible d t p = true
        ∧ ∀ q ∈ waitingAt d t, eligible d t q = true → q.qos ≤ p.qos)
    ∧ (∀ t, t < 25 → isLane t = false → (serving d t).isSome = true → exec (.xbarGrant t) s = .next (s.after {} d))
    ∧ (∀ t, t = 2 ∨ t = 3 → ∃ x, exec (.xbarGrant t) s = .next (s.after {} x) ∧ x = { d with xbar := x.xbar }
        ∧ x.xbar.log = d.xbar.log ∧ x.xbar.resetting = d.xbar.resetting ∧ x.xbar.count = d.xbar.count)
    ∧ (∀ t, 25 ≤ t → exec (.xbarGrant t) s = .next (s.after {} d))
    ∧ (∀ m, inService d m = true → exec (.masterResetRelease m) s = .next (s.after {} d))
    ∧ ∀ m, inService d m = false → exec (.masterResetRelease m) s =
        .next (s.after {} { d with xbar := { d.xbar with resetting := d.xbar.resetting.filter (· ≠ m) } })

/-- TRANSACTION_DONE: the transaction in service at a target, or the oldest one at a lane, does its words in address
order and frees its place; failed beats are logged (R370, R377, R380), the master gets its answer, a read only after the
earlier reads of that master (R376), and the answers that waited for it follow. A write at port 2 or 3 discards the
words that met a cluster's write in the same cycle, with code WCOLL (R360; which words: log 66). A master in reset gets
no answer: a write has stored some number of its words, a free value, a read is absorbed (R379). At the default target
every beat answers DECERR (R371); a DRAM channel that waits for ALERT_N completes none (R397). A write of a shared-store
word stores the bytes of the enabled lanes (R356, R373). DBG_READ and DBG_WRITE ask for one word as master 17, and are
discarded with ACC_ERR while EN is clear or a beat is under way (R516). -/
def Obligations.TransactionsDoTheirWords : Prop :=
  ∀ s : State, s.dev.alive = true →
    let d := s.dev
    let e := envOf {} s
    let en := (regAt d 0x1000 0).getLsbD 0 = true ∧ d.regs.dbgBusy = false
    let refused := { d with pwr := { d.pwr with accErr := true } }
    let is_ := fun (t : Nat) (c : List Nat) (x : Device) => exec (.transactionDone ⟨t, c⟩) s = .next (s.after {} x)
    (∀ t c, t < 25 → (if isLane t then oldestLane d t else serving d t) = none → is_ t c d)
    ∧ (∀ t c, t < 2 → (dchAt d t).alert = true → is_ t c d)
    ∧ (∀ t c, 25 ≤ t → is_ t c d)
    ∧ (∀ t c p, t < 25 → (t < 2 → (dchAt d t).alert = false) →
        (if isLane t then oldestLane d t else serving d t) = some p →
        let n := p.req.words
        let x := setServing (if isLane t then 32 + p.req.master else t) none d
        let ends := fun (y : Device) => releaseHeld e (if t < 2 then dramBoundary t y else y)
        (p.req.master ∉ d.xbar.resetting →
          let q := runWords (if t = 4 ∨ t = 5 then c.filter (laneWrites d) else []) t p.req n e x
          let y := logBeats t p.req (beatCodes q.1) e q.2.2
          (p.req.write = false → readBefore y p = true → is_ t c (ends { y with xbar := { y.xbar with
            held := y.xbar.held ++ [(t, p, beatCodes q.1, q.2.1)] } }))
          ∧ (p.req.write = true ∨ readBefore y p = false → is_ t c (ends (respond t p.req (beatCodes q.1) q.2.1 e y))))
        ∧ (p.req.master ∈ d.xbar.resetting → ∃ k, k ≤ n ∧ (p.req.write = false → k = n) ∧
            let q := runWords [] t p.req k e { x with free := d.free + 1 }
            let rest := if p.req.write = true ∧ t = 24 then List.replicate (n - k) 3 else []
            is_ t c (ends (logBeats t p.req (beatCodes (q.1 ++ rest)) e q.2.2))))
    ∧ (∀ c r n x, runWords c 24 r n e x = (List.replicate n 3, List.replicate n 0, x))
    ∧ (∀ c r i x, r.addr < 0x4000000 → r.addr + i < 0x100000 → r.write = true → (r.addr + i) ∉ x.mem.bad →
        strobeOf r i ≠ 0 →
        ((r.addr + i) ∈ c → wordAt c 4 r i e x = { code := 1, dev := x })
        ∧ ((r.addr + i) ∉ c → ∃ y, wordAt c 4 r i e x = { dev := y } ∧ (∀ w, w ∈ y.mem.bad ↔ w ∈ x.mem.bad)
          ∧ mget 0 y.mem.store (r.addr + i) = maskWord (mget 0 x.mem.store (r.addr + i)) (dataOf r i) (strobeOf r i)
          ∧ ∀ w, w ≠ r.addr + i → mget 0 y.mem.store w = mget 0 x.mem.store w))
    ∧ (d.pwr.sramClear = true →
        (¬en → exec .dbgRead s = .next (s.after {} refused) ∧ exec .dbgWrite s = .next (s.after {} refused))
        ∧ (en →
          let a := d.regs.dbgAddr.toNat
          let data := BitVec.ofNat 72 ((regAt d 0x100C 0).toNat + (regAt d 0x1010 0).toNat * pow2 32
            + (regAt d 0x1014 0).toNat % 256 * pow2 64)
          let ask := fun (w : Bool) => xbarRequest
            { master := 17, host := decide (pow2 40 ≤ a), addr := a, write := w, words := 1, data := [data]
              strobes := [BitVec.ofNat 9 (regAt d 0x1018 0x1FF).toNat] } { d with regs := { d.regs with dbgBusy := true } }
          exec .dbgRead s = .next (s.after {} (ask false)) ∧ exec .dbgWrite s = .next (s.after {} (ask true))))

/-! ## Frames (chapter 1), geometry, bays, the dispatcher -/

/-- TICK while the tick runs: FN and FNX go on by one, from 0 at the first tick after the tick started; what the ended
frame leaves is settled, completions that are due included, then the actions of R21 follow in their order: doorbell
fetch, commands of FN, seal, release, launch (R15, R17, R21). A resynchronisation item is the state between the commands
and the seal (R238), and one received is taken before them; a power channel emits after the seal of its sources. Without
the tick nothing happens. -/
def Obligations.TickAdvancesTheFrameInTheOrderOfItsActions : Prop :=
  ∀ (s : State) (i : TickIn),
    (s.dev.alive = false ∨ s.dev.clk.tickOn = false → exec (.tick i) s = .next s)
    ∧ (s.dev.alive = true → s.dev.clk.tickOn = true → ∃ t, exec (.tick i) s = .next t
        ∧ t.pending = s.pending
        ∧ (s.dev.clk.ticked = true → t.fc.fn = s.fc.fn + 1 ∧ t.fc.fnx = s.fc.fnx + 1)
        ∧ (s.dev.clk.ticked = false → t.fc.fn = 0 ∧ t.fc.fnx = 0)
        ∧ (∀ e : Env, e = envOf { fails := i.fails } { s with fc := nextFrame s.dev.clk.ticked s.fc } →
            let d := { s.dev with clk := { s.dev.clk with ticked := true } }
            let obj := if hubOfPair d then objDigest (e.fn - 2) d else 0
            let counted := clockTick i e (countDown d)
            let d1 := patrol i.patrolBad e (forAll i.upsets strike (forAll i.seqErrs (fun f x => hwFault 3 f e x) counted))
            let d2 := pairTick e (finishFrame e
              (modPair (fun p => { p with sent := p.sent.filter (fun m => m.fn = e.fn) }) d1))
            let ended := senseTick e (portTick (pchShift (decTick i.bits (latch e (closeFrame e d2)))))
            let applied := applyTick e (loadTick e (fetchStart e ended))
            let emitted := protectTick (pscTick e (sealTick e (serveTick e applied)))
            let x := takeForms e (copyTick e (launchTick obj e (releaseFrame e emitted)))
            { t.dev with outbox := x.outbox } =
              { x with pwr := { x.pwr with stepFade := if fnStepDue e.fnSync x then 1 else x.pwr.stepFade } }))

/-- FN_STEP ends the lengthened tick at the boundary that the system time names: FNX takes its number, FN_SYNC is set,
an EVENT names the old FN, every waiting command completes with FN_STEPPED while rendering runs, labels move by the
difference, the AES3 transmitters that run cut their blocks and the streams toggle mr (R19, R419, R442, R465). It
happens only where the tick made it due; otherwise the command leaves everything as it is. -/
def Obligations.FnStepRenumbersTheFrames : Prop :=
  ∀ s : State, s.dev.alive = true →
    let d := s.dev
    let fnx : BitVec 64 := BitVec.ofNat 64 (stepFnx d.clk - 1)
    let fc : FrameClock := { fn := fnx.setWidth 32, fnx := fnx, fnSync := true }
    let e := envOf {} { s with fc := fc }
    let n := fc.fn - s.fc.fn
    let dropped := if d.pwr.rendering then dropAll 3 (d.cmd.queue.filter (fun p => !p.applied)) e d else d
    let x := shiftHost n (shiftEngines n (shiftInputs n dropped))
    let y := raise 0x100E 0 (leBytes 4 s.fc.fn.toNat) e { x with
      clk := { x.clk with stepped := false, tickLen := stepLen d.clk }, eth := { x.eth with mr := !x.eth.mr }
      aes := { x.aes with aout := mmap {} (fun _ (p : AoutPort) => { p with cut := p.cut || p.en }) x.aes.aout }
      pwr := { x.pwr with stepFade := if d.pwr.rendering then 2 else 0 } }
    (d.pwr.stepFade ≠ 1 → exec .fnStep s = .next s)
    ∧ (d.pwr.stepFade = 1 → exec .fnStep s = .next (({ s with fc := fc } : State).after {} y)
        ∧ (dropped.evt.store.length < 250 → ∃ v ∈ y.evt.store, v.code = 0x100E ∧ v.fn = fnx.setWidth 32
            ∧ v.detail.take 4 = leBytes 4 s.fc.fn.toNat))
    ∧ ∀ (k : BitVec 32) (y : Device), (shiftHost k y).cmd.queue.map Pend.af = y.cmd.queue.map (fun p => p.af + k)
        ∧ (shiftHost k y).pair.handover = y.pair.handover.map (· + k)
        ∧ (shiftEngines k y).pwr.startFn = y.pwr.startFn + k
        ∧ (shiftInputs k y).inp.nc = y.inp.nc.map (· + k)

/-- GEO_EVAL_DONE evaluates every configured object and ends the evaluation, unless a hardware fault has ended it (R86,
R378). MD_STALE: an object without a sealed record for STALE_FRAMES frames is flagged, 0 disables the flag (R55).
OVERRUN_RECOVER: an output that has been on time for 60 frames fades in again (R42). STAGING_DONE takes the operand of
the oldest accepted command of the index from host memory (R38, R262); a coefficient load waits while an earlier load of
its block has not been applied and swapped, and is then checked and staged (R161, R164, R165). -/
def Sys2Proof.Machine.FrameEventsActOnTheirObject : Prop :=
  ∀ s : State, s.dev.alive = true →
    let d := s.dev
    let e := envOf {} s
    let all := forAll (List.range (nObj d)) (fun o x => evalObj o e x) d
    (d.geo.running = true → d.geo.failed = false →
      exec .geoEvalDone s = .next (s.after {} { all with geo := { all.geo with running := false } }))
    ∧ (d.geo.running = false ∨ d.geo.failed = true → exec .geoEvalDone s = .next (s.after {} d))
    ∧ (∀ o, o < nObj d →
        let x := objAt d o
        let due := x.params.mdSrc ≠ .command ∧ x.params.staleFrames ≠ 0 ∧ x.params.staleFrames ≤ x.staleCount
        (due → exec (.mdStale o) s = .next (s.after {} (setObj o { x with stale := true } d)))
        ∧ (¬due → exec (.mdStale o) s = .next (s.after {} (setObj o x d))))
    ∧ (∀ o, nObj d ≤ o → exec (.mdStale o) s = .next (s.after {} d))
    ∧ (∀ n c, n < nOut d → (outAt d n).silent = some c →
        (60 ≤ c → exec (.overrunRecover n) s = .next (s.after {} (setOut n { outAt d n with recover := true } d)))
        ∧ (c < 60 → exec (.overrunRecover n) s = .next (s.after {} d)))
    ∧ (∀ n, nOut d ≤ n ∨ (outAt d n).silent = none → exec (.overrunRecover n) s = .next (s.after {} d))
    ∧ (∀ r h, d.cmd.queue.find? (fun p => p.ridx = r && !p.staged && !p.applied) = none →
        exec (.stagingDone r h) s = .next (s.after h d))
    ∧ ∀ r h p, d.cmd.queue.find? (fun q => q.ridx = r && !q.staged && !q.applied) = some p →
        let n := cmdBytes d p.d p.opcode
        let b := if n = 0 then some [] else dmaRead (envOf h s) d p.d.addr.toNat n
        (p.opcode ≠ 0x0202 →
          exec (.stagingDone r h) s = .next (s.after h { d with cmd := { d.cmd with queue := d.cmd.queue.map (fun q =>
            if q.uid = p.uid then { q with staged := true, operand := b, work := 0, cveWork := 0 } else q) } }))
        ∧ (p.opcode = 0x0202 → loadMayStage p (envOf h s) d = false → exec (.stagingDone r h) s = .next (s.after h d))
        ∧ (p.opcode = 0x0202 → loadMayStage p (envOf h s) d = true →
          exec (.stagingDone r h) s = .next (s.after h (stageLoad p b d)))

/-- RECORD_ARRIVAL (R48 to R57): a record from another source than MD_SRC is ignored and counted, a bad one is counted,
any other reaches the object's metadata task, or waits at the object where no task has a home. A record that waits when
its source is no longer the object's is ignored and counted (R52); one earlier than the last sealed is late and dropped;
late and bad records of a hub are held with that hub's number, and count at the seal if it is the selected one (R57).
The seal takes the latest waiting record not later than the tick (R54). -/
def Obligations.MetadataRecordIsCheckedAndSealed : Prop :=
  ∀ (s : State) (src : MdSrc) (hub : Nat) (r : List Byte), s.dev.alive = true →
    let d := s.dev
    let e := envOf {} s
    let o := recObj r
    let x := objAt d o
    let is_ := fun (y : Device) => exec (.recordArrival src hub r) s = .next (s.after {} y)
    let bad := (hub = 0 → is_ (setObj o { x with mdBad := true } d))
      ∧ (hub ≠ 0 → is_ (setObj o { x with badBy := x.badBy ++ [hub] } d))
    (nObj d ≤ o → is_ d)
    ∧ (o < nObj d → x.params.mdSrc ≠ src → is_ (setObj o { x with ignored := inc32 x.ignored } d))
    ∧ (o < nObj d → x.params.mdSrc = src → recMotion (nObj d) r = none → bad)
    ∧ (o < nObj d → x.params.mdSrc = src → ∀ m, recMotion (nObj d) r = some m →
        let p : PendRec := { stamp := recStamp r, m := m.1, clamped := m.2, hub := hub, src := src }
        (lawAllowed d o m.1.law = false → bad)
        ∧ (lawAllowed d o m.1.law = true → homeOf d (mdTask d o) = none → is_ (pendRecord e o p d))
        ∧ (lawAllowed d o m.1.law = true → (homeOf d (mdTask d o)).isSome = true →
            is_ (deliverRecord o p (sub r 0 32) e d)))
    ∧ (∀ p : PendRec, x.params.mdSrc ≠ p.src → pendRecord e o p d = setObj o { x with ignored := inc32 x.ignored } d)
    ∧ (∀ (p : PendRec) (q : BitVec 32), x.params.mdSrc = p.src → x.sealed = some q → earlier p.stamp q = true →
        (p.hub = 0 → pendRecord e o p d = setObj o { x with mdLate := true } d)
        ∧ (p.hub ≠ 0 → pendRecord e o p d = setObj o { x with lateBy := x.lateBy ++ [p.hub] } d))
    ∧ (∀ p : PendRec, x.params.mdSrc = p.src → (∀ q, x.sealed = some q → earlier p.stamp q = false) →
        pendRecord e o p d = setObj o { x with
          pend := x.pend.filter (fun q => q.stamp ≠ p.stamp || q.hub ≠ p.hub) ++ [p]
          mdLate := x.mdLate || (!later p.stamp s.fc.fn && p.hub == 0)
          lateBy := if later p.stamp s.fc.fn || p.hub == 0 then x.lateBy else x.lateBy ++ [p.hub] } d)
    ∧ (∀ (t : BitVec 32) (h : Nat) (c : Bool) (y : ObjState), (sealObj t h c y).lateBy = []
        ∧ (sealObj t h c y).mdBad = (y.mdBad || y.badBy.contains h)
        ∧ (h ∈ y.lateBy → (sealObj t h c y).mdLate = true))
    ∧ ∀ (l : List PendRec) (t : BitVec 32) (p : PendRec), latestRec t l = some p → p ∈ l ∧ later p.stamp t = false

/-- BAY_ENGINE_START: the engine of a bay starts once in a frame, when every object of its bay has been written (R114),
and what it met uncorrectable counts once each (R113, R356). REDUCTION_DONE: the reduction tree delivers XSUM once in a
frame when every bay has rendered (R112). CVE_DONE: the convolution engine delivers once in a frame (R158).
BULK_READ_DONE: a bulk read is delivered while rendering runs (R94). An operand of another frame than the running one
changes nothing before that frame is cancelled; afterwards its tokens are discarded (R304). -/
def Sys2Proof.Machine.BayEnginesRunOncePerFrame : Prop :=
  ∀ s : State, s.dev.alive = true →
    let d := s.dev
    let e := envOf {} s
    let k := s.fc.fn - 1
    let late := fun (sel : Nat) (j : BitVec 32) => if frameOpen d j then d else deliver sel j d
    (∀ b, b < 16 → d.pwr.rendering = true → b ∉ d.xp.started → bayReady d b = true →
        let x := bayFrame b k e d
        exec (.bayEngineStart b) s = .next (s.after {} (forAll (d.xp.badEntries.filter (fun n => n / 32768 = b)) ueEntry
          (forAll (x.xp.met.filter (fun w => w / 524288 = b)) ueBay x)))
        ∧ x.xp.started = d.xp.started ++ [b] ∧ x.xp.badEntries = d.xp.badEntries.filter (fun n => n / 32768 ≠ b))
    ∧ (∀ b, 16 ≤ b ∨ d.pwr.rendering = false ∨ b ∈ d.xp.started ∨ bayReady d b = false →
        exec (.bayEngineStart b) s = .next (s.after {} d))
    ∧ (∀ n j,
        let o := outAt d n
        let on := n < nOut d ∧ d.pwr.rendering = true
        let due := o.xsum = none ∧ ∀ b, b < 16 → b ∈ d.xp.started ∨ bayObjs d b = []
        (on → j = k → due → exec (.reductionDone ⟨n, j⟩) s =
          .next (s.after {} (deliver (selXsum n) k (setOut n { o with xsum := some (xsumOf d k n) } d))))
        ∧ (on → j ≠ k → exec (.reductionDone ⟨n, j⟩) s = .next (s.after {} (late (selXsum n) j)))
        ∧ (¬on ∨ (j = k ∧ ¬due) → exec (.reductionDone ⟨n, j⟩) s = .next (s.after {} d)))
    ∧ (∀ n j,
        let o := outAt d n
        let on := n < nOut d ∧ (outStat (cfg d) n).convMax ≠ 0
        let due := o.convIn.isSome = true ∧ o.convOut = none
        (on → j = k → due → exec (.cveDone ⟨n, j⟩) s = .next (s.after {} (deliver (selCve n) k (convolve k n d))))
        ∧ (on → j ≠ k → exec (.cveDone ⟨n, j⟩) s = .next (s.after {} (late (selCve n) j)))
        ∧ (¬on ∨ (j = k ∧ ¬due) → exec (.cveDone ⟨n, j⟩) s = .next (s.after {} d)))
    ∧ ∀ o j,
        let on := d.pwr.rendering = true ∧ (cfg d).objBulkEn = true ∧ o < nObj d
        (on → j = k → exec (.bulkReadDone ⟨o, j⟩) s = .next (s.after {} (deliver (selBulk o) k d)))
        ∧ (on → j ≠ k → exec (.bulkReadDone ⟨o, j⟩) s = .next (s.after {} (late (selBulk o) j)))
        ∧ (¬on → exec (.bulkReadDone ⟨o, j⟩) s = .next (s.after {} d))

/-- FrameEventsActOnTheirObject and BayEnginesRunOncePerFrame together: the statements above of these names, each with
the rules that it names. -/
def Obligations.FrameEventsAndBayEnginesRunTheirObject : Prop :=
  FrameEventsActOnTheirObject ∧ BayEnginesRunOncePerFrame

/-- TASK_DISPATCH: a free core takes the first piece of work on its own list that may start; with none there it resumes
its suspended task, else a task that was moved to it, else a re-run task, else the oldest background work that may
start; a foreground task suspends a background one at an interruptible boundary (R301, R305, R306, R312, R345; moved
tasks: log 129, re-run tasks: log 132). COPY_END: a state copy that has started ends with the homes moved, its place
free and the leaving core OFFLINE, or the gathering one AVAILABLE (R312 to R314). -/
def Obligations.FreeCoreTakesTheHeadOfItsList : Prop :=
  ∀ s : State, s.dev.alive = true →
    let d := s.dev
    (∀ c, c < 64 →
        let q := cslotAt d c
        let p := (coreAt d c).parked
        let is_ := fun (x : Device) => exec (.taskDispatch c) s = .next (s.after {} x)
        let works := q.st = .available ∨ q.st = .spare
        let head := q.ready.find? (startable d)
        let takes := fun (w : Work) (x : Device) => modCslot c (fun y => { y with ready := y.ready.filter (·.rel ≠ w.rel) }) x
        let idle := works ∧ q.running = none ∧ head = none
        (¬works → is_ d)
        ∧ (works → q.running = none → ∀ w, head = some w → is_ (startWork c w (takes w d)))
        ∧ (idle → ∀ w, q.suspended = some w → is_ (resumeWork c w d))
        ∧ (idle → q.suspended = none → ∀ m r, p = m :: r → is_ (resumeWork c m.work (modCore c (fun x =>
            putArea m.area { x with parked := r, saved := some m.regs, sxfers := m.xfers }) d)))
        ∧ (idle → q.suspended = none → p = [] → ∀ w, rerunFor c d = some w → is_ (startWork c w { d with
            disp := { d.disp with reruns := d.disp.reruns.filter (·.rel ≠ w.rel) } }))
        ∧ (idle → q.suspended = none → p = [] → rerunFor c d = none → d.disp.background.find? (startable d) = none → is_ d)
        ∧ (idle → q.suspended = none → p = [] → rerunFor c d = none → ∀ w, d.disp.background.find? (startable d) = some w →
            is_ (startWork c w { d with disp := { d.disp with background := d.disp.background.filter (·.rel ≠ w.rel) } }))
        ∧ (works → ∀ w, q.running = some w → head = none → is_ d)
        ∧ (works → ∀ w r, q.running = some w → head = some r →
            (w.bg = false ∨ interruptible (coreAt d c).regs = false → is_ d)
            ∧ (w.bg = true → interruptible (coreAt d c).regs = true →
                is_ (startWork c r (modCslot c (fun x => { x with
                    suspended := some w, ready := x.ready.filter (·.rel ≠ r.rel), running := none })
                  (trace 6 c w.task w.frame 0 (modCore c saveContext d))))))
        ∧ ∀ w x, (cslotAt (startWork c w x) c).running = some w ∧ (coreAt (startWork c w x) c).xfers = []
            ∧ (cslotAt (resumeWork c w x) c).running = some w ∧ (cslotAt (resumeWork c w x) c).suspended = none
            ∧ (coreAt (resumeWork c w x) c).regs.waitMask = none ∧ (coreAt (resumeWork c w x) c).saved = none)
    ∧ (∀ c, 64 ≤ c → exec (.taskDispatch c) s = .next (s.after {} d))
    ∧ (d.disp.copy = none → exec .copyEnd s = .next (s.after {} d))
    ∧ ∀ j, d.disp.copy = some j →
        (j.started = false → exec .copyEnd s = .next (s.after {} d))
        ∧ (j.started = true → ∃ t, exec .copyEnd s = .next (s.after {} t) ∧ t.disp.copy = none
            ∧ t.disp.homes = j.moves.foldl (fun (h : SMap Nat) m => mset 0 h m.1 (m.2.1 + 1)) d.disp.homes
            ∧ (∀ c, j.src = some c → (cslotAt t c).st = .offline)
            ∧ (∀ r, j.src = none → j.dest = some r → (cslotAt t r).st = .available))

/-! ## Crosspoints (chapter 03) -/

/-- A RAMP crosspoint in a frame of N samples reads once per sample at delay δ(i) = D_CUR + floor(ΔD × (i + 1) / N),
with the gain g(i); δ(N − 1) = D_T exactly; from one sample to the next the delay moves by the slope ΔD / N to within
one unit, the first one from D_CUR on, so that it is continuous across the frame; at the frame's end D_CUR is D_T and
G_CUR is G_T (R105, R106). -/
def Obligations.DelayRampEndsOnItsTarget : Prop :=
  ∀ (n : Nat) (slew : F36) (tap : Int → Tap) (granted : Bool) (a : XpIn) (xp : XPoint), 0 < n → xpKind a = 4 →
    let gap : Int := (a.dt : Int) - a.dc
    let delay : Nat → Int := fun i => (a.dc : Int) + Int.fdiv (gap * ((i : Int) + 1)) n
    let x := renderXp n slew tap granted a xp
    x.adds = [(List.range n).map (fun i =>
        fmul (reading tap (delay i) i).1 (xpGain n (xpCosine slew a) a.gc a.gt i))]
    ∧ delay (n - 1) = a.dt
    ∧ (∀ i : Nat, gap < n * (delay (i + 1) - delay i + 1) ∧ n * (delay (i + 1) - delay i - 1) < gap)
    ∧ (gap < n * (delay 0 - a.dc + 1) ∧ n * (delay 0 - a.dc) ≤ gap)
    ∧ x.xp.dCur = a.dt ∧ x.xp.gCur = a.gt ∧ x.xp.kind = 4

/-! ## Render cores (chapter 11) -/

/-- Core `c` executes a task, waits for nothing, and the next instruction meets no fault before it acts: IMEM, PC_RANGE,
SLOT (`listed` names the instructions of R343), HOLD_STALL (`stalls` names WAITX and XFER) (R321, R343 to R345, R348).
-/
def Sys2Proof.Machine.Issues (d : Device) (c : Nat) (listed stalls : Bool) : Prop :=
  let r := (coreAt d c).regs
  let atEnd := ∃ l k, r.reps = l :: k ∧ r.pc = l.re
  c < 64 ∧ coreRuns d c = true ∧ fetchKey d c ∉ d.mem.imemBad ∧ ((coreCtx d c).custom = true → 0x8000 ≤ r.pc.toNat)
    ∧ (listed = true → r.slots = 0 ∧ ¬atEnd) ∧ (r.slots ≠ 0 → ¬atEnd) ∧ (stalls = true → r.slots = 0 ∧ r.holdN = 0)

/-- The moves of an instruction fault on nothing, wait for no transfer and load no uncorrectable word; MOVE1 may load
the one that MOVE0 stores (R328). -/
def Sys2Proof.Machine.MovesGo (f : AFmt) (k : CoreState) : Prop :=
  let word := fun (mv : Move) => moveWord mv.size (moveAddr k.regs mv)
  ∀ p ∈ (aMoves f).zipIdx, moveFault k.regs p.1 = none ∧ moveBusy k p.1 = false
    ∧ (p.1.store = false → word p.1 ∈ k.bad →
        p.2 = 1 ∧ ∃ m, (aMoves f).head? = some m ∧ m.store = true ∧ word m = word p.1)

/-- A core after a format A instruction: its arithmetic, then MOVE0, then MOVE1, all with the registers that stood
before it; then the pointers, the times and the next address (R328, R340, R341). -/
def Sys2Proof.Machine.retired (f : AFmt) (o : AOp) (k : CoreState) : CoreState :=
  let old := k.regs
  let mvs := aMoves f
  let loads := (mvs.filter (fun mv => !mv.store)).map (fun mv => mv.dreg)
  let stores := (mvs.filter (fun mv => mv.store)).map (fun mv => mv.dreg)
  let t := issueAt old (o.reads ++ stores) o.acc o.dst o.lat o.div false loads
  let x := mvs.foldl (fun y mv => doMove old mv y) { k with regs := o.run (applyLate old) }
  let r := stamp t o.dst o.lat o.mac loads (postModify old mvs x.regs)
  let flags := match o.flags with | some l => t + l | none => r.flagsReady
  { x with regs := advance { r with divReady := (if o.div then t + 7 else r.divReady), flagsReady := flags } }

/-- The F36 and integer instructions that write the halves that LANE selects, each with its rule (R332 to R337): the
result goes to the selected halves of DST, the other half and every other register keep their values, SAT is sticky. -/
def Obligations.LaneInstructionsWriteTheirHalves : Prop :=
  (∀ (s : State) (c : Nat) (f : AFmt), s.dev.alive = true →
    let d := s.dev
    let k := coreAt d c
    let go := fun (i : Nat → AFmt → Instr) (wf : Bool) (o : AOp) =>
      wf = true → Issues d c false false → MovesGo f k →
        exec (i c f) s = .next (s.after {} (setCore c (retired f o k) d))
    let two := fun (i : Nat → AFmt → Instr) (lat : Nat) (op : Half → Half → Half × Bool) =>
      go i (f.wf .binary) (arith f lat true (fun _ a b => op a b))
    let one := fun (i : Nat → AFmt → Instr) (op : Half → Half × Bool) =>
      go i (f.wf .unary) (arith f 3 false (fun _ a _ => op a))
    let int := fun (i : Nat → AFmt → Instr) (lat : Nat) (op : BitVec 32 → BitVec 32 → BitVec 32) =>
      two i lat (fun a b => (ofInt32 (op (natOf a) (natOf b)), false))
    two .fadd 3 (fun a b => satDy (dyAdd (toDy a) (toDy b)))
    ∧ two .fsub 3 (fun a b => satDy (dySub (toDy a) (toDy b)))
    ∧ two .fmul 3 (fun a b => satDy (dyMul (toDy a) (toDy b)))
    ∧ go .fmac (f.wf .binary) { arith f 3 true (fun x a b =>
        let p := satDy (dyMul (toDy a) (toDy b))
        let q := satDy (dyAdd (toDy x) (toDy p.1))
        (q.1, p.2 || q.2)) with acc := some f.dst, mac := true }
    ∧ go .fmsc (f.wf .binary) { arith f 3 true (fun x a b =>
        let p := satDy (dyMul (toDy a) (toDy b))
        let q := satDy (dySub (toDy x) (toDy p.1))
        (q.1, p.2 || q.2)) with acc := some f.dst, mac := true }
    ∧ two .fmin 3 (fun a b => (fmin a b, false)) ∧ two .fmax 3 (fun a b => (fmax a b, false))
    ∧ one .fabs (fun a => (fabs a, false)) ∧ one .fneg (fun a => (fneg a, false)) ∧ one .fmov (fun a => (fcanon a, false))
    ∧ go .fdiv (f.wf .binaryHalf) { arith f 7 true (fun _ a b => divSat a b) with div := true }
    ∧ go .fsqrt (f.wf .unaryHalf)
        { arith f 7 false (fun _ a _ => (fsqrt a, decide ((toDy a).m < 0))) with div := true }
    ∧ two .fscl 3 (fun a b => satDy ⟨(toDy a).m, (toDy a).e + intOf b⟩)
    ∧ one .fexp (fun a => (ofInt32 (BitVec.ofInt 32 (if (toDy a).m = 0 then -128 else (toDy a).e + 27)), false))
    ∧ one .fmant (fun a => (ofInt32 (BitVec.ofInt 32 (toDy a).m), false))
    ∧ one .itof (fun a => satDy ⟨intOf a, 0⟩)
    ∧ one .ftoi (fun a =>
        let p := toInt (-2147483648) 2147483647 (toDy a)
        (ofInt32 (BitVec.ofInt 32 p.1), p.2))
    ∧ int .iadd 1 (· + ·) ∧ int .isub 1 (· - ·) ∧ int .imul 2 (· * ·)
    ∧ int .iand 1 (· &&& ·) ∧ int .ior 1 (· ||| ·) ∧ int .ixor 1 (· ^^^ ·)
    ∧ int .ishl 1 (fun a b => a <<< (b.toNat % 32)) ∧ int .ishr 1 (fun a b => a.sshiftRight (b.toNat % 32))
    ∧ int .ilsr 1 (fun a b => a >>> (b.toNat % 32))
    ∧ one .icls (fun a => (ofInt32 (BitVec.ofNat 32 (clsGo (natOf a) 31)), false)))
  ∧ ∀ (f : AFmt) (lat : Nat) (b : Bool) (op : LaneOp) (k : CoreState), aMoves f = [] →
    let x := retired f (arith f lat b op) k
    let p := laneApply f.lane op (dreg k.regs f.dst) (dreg k.regs f.srcA) (dreg k.regs f.srcB)
    dreg x.regs f.dst = p.1 ∧ (∀ n, n ≠ f.dst → dreg x.regs n = dreg k.regs n)
    ∧ x.regs.sat = ((applyLate k.regs).sat || p.2) ∧ x.scratch = k.scratch ∧ x.xfers = k.xfers
    ∧ (f.lane = .lo → hiOf p.1 = hiOf (dreg k.regs f.dst)) ∧ (f.lane = .hi → loOf p.1 = loOf (dreg k.regs f.dst))

/-- FCMP and ICMP write Z and N of the named half; PTOF and FTOP convert a PCM lane; DMOV moves a whole word; NOP does
its moves alone (R334 to R337). A load writes its register from its word, a store its word alone; the moves fault, wait
for a transfer, or lose the core with an uncorrectable word that they load (R313, R327 to R330, R338); an uncorrectable
instruction word ends the task with IMEM (R321). FCAUSE holds the cause and the address of a fault (R348). -/
def Obligations.ComparesConversionsAndMoves : Prop :=
  (∀ (s : State) (c : Nat) (f : AFmt), s.dev.alive = true →
    let d := s.dev
    let k := coreAt d c
    let go := fun (i : Nat → AFmt → Instr) (wf : Bool) (o : AOp) =>
      wf = true → Issues d c false false → MovesGo f k →
        exec (i c f) s = .next (s.after {} (setCore c (retired f o k) d))
    let half := fun (w : Word72) => if f.lane = .hi then hiOf w else loOf w
    let ptof := fun (r : CoreRegs) =>
      let x := ofPcm (laneOf (dreg r f.srcA) f.srcB.toNat)
      setD r f.dst (if f.lane = .hi then setHi (dreg r f.dst) x else setLo (dreg r f.dst) x)
    let ftop := fun (r : CoreRegs) =>
      let p := pcmOf (half (dreg r f.srcA))
      orSat p.2 (setD r f.dst (setLane (dreg r f.dst) f.srcB.toNat p.1))
    let cmp := fun (i : Nat → AFmt → Instr) (lat : Nat) (eq lt : Half → Half → Bool) =>
      go i (cmpWf f) { reads := [f.srcA, f.srcB], lat := 0, flags := some lat, run := fun r => { r with
        z := eq (half (dreg r f.srcA)) (half (dreg r f.srcB)), n := lt (half (dreg r f.srcA)) (half (dreg r f.srcB)) } }
    cmp .fcmp 3 feq flt ∧ cmp .icmp 1 (fun a b => intOf a == intOf b) (fun a b => decide (intOf a < intOf b))
    ∧ go .ptof (f.wf .pcm) { reads := [f.srcA], dst := some f.dst, lat := 3, run := ptof }
    ∧ go .ftop (f.wf .pcm) { reads := [f.srcA], dst := some f.dst, lat := 3, run := ftop }
    ∧ go .dmov (f.wf .whole)
        { reads := [f.srcA], dst := some f.dst, lat := 1, run := fun r => setD r f.dst (dreg r f.srcA) }
    ∧ go .insnNop (f.wf .bare) { reads := [], lat := 0, run := id }
    ∧ (∀ cause, (aMoves f).findSome? (moveFault k.regs) = some cause → Issues d c false false → f.wf .bare = true →
        exec (.insnNop c f) s = .next (s.after {} (coreFault c cause (envOf {} s) d)))
    ∧ ((∀ mv ∈ aMoves f, moveFault k.regs mv = none) → (∃ mv ∈ aMoves f, moveBusy k mv = true) → Issues d c false false →
        f.wf .bare = true →
        (k.regs.slots = 0 → k.regs.holdN = 0 → exec (.insnNop c f) s =
          .next (s.after {} (setCore c { k with regs := { k.regs with stalled := true, repEdge := false } } d)))
        ∧ (k.regs.slots ≠ 0 ∨ k.regs.holdN ≠ 0 →
            exec (.insnNop c f) s = .next (s.after {} (coreFault c 0x07 (envOf {} s) d))))
    ∧ (∀ mv, (∀ m ∈ aMoves f, moveFault k.regs m = none ∧ moveBusy k m = false) → badLoad k (aMoves f) = some mv →
        Issues d c false false → f.wf .bare = true → exec (.insnNop c f) s =
          .next (s.after {} (coreEcc c (moveWord mv.size (moveAddr k.regs mv)) (envOf {} s) d)))
    ∧ (c < 64 → coreRuns d c = true → (coreCtx d c).custom = false ∨ 0x8000 ≤ k.regs.pc.toNat →
        fetchKey d c ∈ d.mem.imemBad → f.wf .bare = true →
        exec (.insnNop c f) s = .next (s.after {} (imemLost c (envOf {} s) d))))
  ∧ (∀ (old : CoreRegs) (mv : Move) (k : CoreState),
      let w := moveWord mv.size (moveAddr old mv)
      let x := doMove old mv k
      (mv.store = false → x.scratch = k.scratch ∧ x.bad = k.bad
        ∧ dreg x.regs mv.dreg = loadInto mv.size (moveAddr old mv) (mget 0 k.scratch w) (dreg k.regs mv.dreg)
        ∧ ∀ n, n ≠ mv.dreg → dreg x.regs n = dreg k.regs n)
      ∧ (mv.store = true → x.regs.d = k.regs.d
        ∧ mget 0 x.scratch w = (storeInto mv.size (moveAddr old mv) (mget 0 k.scratch w) (dreg old mv.dreg)).1
        ∧ ∀ v, v ≠ w → mget 0 x.scratch v = mget 0 k.scratch v))
  ∧ ∀ (c cause : Nat) (e : Env) (d : Device), cause < 16 →
      (coreAt (coreFault c cause e d) c).fcause =
        BitVec.ofNat 8 cause ++ (0#8) ++ (coreAt d c).regs.pc

/-- The instructions of formats I, S and L, that is IADDI, LDI, LDF, MFS, MTS, MTSI and PADDI (R323, R324, R330, R341,
R353, R354): immediates and special registers; CYC reads the cycle in which MFS issues; a write of an addressing
register is seen by the instruction after the next; a read-only register faults with REG_WRITE, a ring of length 0 with
RING_ZERO. -/
def Obligations.ImmediatesAndSpecialRegisters : Prop :=
  ∀ (s : State) (c : Nat), s.dev.alive = true → Issues s.dev c false false →
    let d := s.dev
    let k := coreAt d c
    let r := applyLate k.regs
    let is_ := fun (i : Instr) (x : CoreRegs) => exec i s = .next (s.after {} (setCore c { k with regs := x } d))
    let faults := fun (i : Instr) (cause : Nat) => exec i s = .next (s.after {} (coreFault c cause (envOf {} s) d))
    let done := fun (reads : List (BitVec 5)) (dst : Option (BitVec 5)) (lat : Nat) (flags : Bool) (x : CoreRegs) =>
      advance (stamp (issueAt k.regs reads none dst lat false flags) dst lat false [] x)
    (∀ dst src imm, is_ (.iaddi c dst src imm) (done [src] (some dst) 1 false
        (setD r dst (setLo (dreg r dst) (ofInt32 (natOf (loOf (dreg r src)) + imm))))))
    ∧ (∀ dst imm, is_ (.ldi c dst imm) (done [] (some dst) 1 false (setD r dst (setLo (dreg r dst) (ofInt32 imm)))))
    ∧ (∀ dst imm, is_ (.ldf c dst .lo imm) (done [] (some dst) 1 false (setD r dst (setLo (dreg r dst) (fcanon imm))))
        ∧ is_ (.ldf c dst .hi imm) (done [] (some dst) 1 false (setD r dst (setHi (dreg r dst) (fcanon imm))))
        ∧ is_ (.ldf c dst .pair imm) (done [] (some dst) 1 false (setD r dst (ofHalves (fcanon imm) (fcanon imm)))))
    ∧ (∀ n dr, sregWf n = true → is_ (.mfs c n dr) (done [] (some dr) 1 (n == 0x47#7)
        (setD r dr (setLo (dreg r dr) (getSreg (coreCtx d c) n.toNat
          { r with cyc := satCyc (issueAt k.regs [] none (some dr) 1 false (n == 0x47#7)) } k)))))
    ∧ (∀ n imm, sregWf n = true →
        let v := fun (y : BitVec 32) =>
          done [] none 0 (n.toNat == 0x47) (if n.toNat < 0x2C then { r with late := [{ sreg := n.toNat, value := y }] }
            else setSreg n.toNat y r)
        (sregRO n.toNat = true → faults (.mtsi c n imm) 0x09 ∧ ∀ dr, faults (.mts c n dr) 0x09)
        ∧ (sregRO n.toNat = false → is_ (.mtsi c n imm) (v imm)))
    ∧ (∀ n dr, sregWf n = true → sregRO n.toNat = false →
        let y := natOf (loOf (dreg k.regs dr))
        is_ (.mts c n dr) (done [dr] none 0 (n.toNat == 0x47)
          (if n.toNat < 0x2C then { r with late := [{ sreg := n.toNat, value := y }] } else setSreg n.toNat y r)))
    ∧ (∀ a imm, effAddr k.regs a.toNat = none → faults (.paddi c a imm) 0x0A)
    ∧ (∀ a imm e, effAddr k.regs a.toNat = some e → is_ (.paddi c a imm) (done [] none 0 false { r with
        late := [{ sreg := a.toNat, value := (postMod k.regs a.toNat (mget 0 k.regs.a a.toNat) imm.toInt).zeroExtend 32 }] }))
    ∧ ∀ (q : CoreRegs) (a : Nat) (v : BitVec 32), a < 16 → mget 0 (setSreg a v q).a a = v.setWidth 17
        ∧ (setSreg a v q).d = q.d ∧ (setSreg a v q).pc = q.pc ∧ (setSreg a v q).sat = q.sat
        ∧ ∀ b, b ≠ a → mget 0 (setSreg a v q).a b = mget 0 q.a b

/-- BR, CALL and RET have two delay slots and take their condition from FLAGS; CALL sets LR to its address + 3; REP and
REPD push a level or, with a count of 0, skip their body; HOLD holds the boundary (R342 to R345). Custom code that
fetches outside its region faults with PC_RANGE (R343, R348). The address goes on by one, back to RS at the end of a
body, to the target after the second slot, leaving the levels that do not hold it. -/
def Obligations.BranchesAndRepeatsChangeTheAddress : Prop :=
  (∀ (s : State) (c : Nat), s.dev.alive = true → Issues s.dev c true false →
    let d := s.dev
    let k := coreAt d c
    let q := k.regs
    let is_ := fun (i : Instr) (x : CoreRegs) => exec i s = .next (s.after {} (setCore c { k with regs := x } d))
    let faults := fun (i : Instr) (cause : Nat) => exec i s = .next (s.after {} (coreFault c cause (envOf {} s) d))
    let ran := fun (flags : Bool) (reads : List (BitVec 5)) =>
      advance (stamp (issueAt q reads none none 0 false flags) none 0 false [] (applyLate q))
    let branch := fun (cond : BitVec 3) (goal : BitVec 16) =>
      { ran (decide (cond ≠ 0)) [] with slots := 2, target := if condHolds cond q then some goal else none }
    (∀ cond t, is_ (.br c cond t) (branch cond t) ∧ is_ (.call c cond t) { branch cond t with lr := q.pc + 3 })
    ∧ (∀ cond, is_ (.ret c cond) (branch cond q.lr))
    ∧ (∀ n : BitVec 3, n = 1 ∨ n = 2 → is_ (.hold c n) { ran false [] with holdN := n.toNat })
    ∧ (∀ n end_ : BitVec 16,
        let body := end_.toNat - q.pc.toNat
        let nests := q.reps = [] ∨ ∃ l, q.reps = [l] ∧ l.rs.toNat ≤ q.pc.toNat ∧ q.pc.toNat ≤ l.re.toNat
          ∧ end_.toNat < l.re.toNat
        let level := fun (m : Nat) => ({ rc := BitVec.ofNat 16 m, rs := q.pc + 1, re := end_ } : RepLevel)
        (body = 0 ∨ 4096 < body ∨ ¬nests → faults (.rep c n end_) 0x04 ∧ ∀ x, faults (.repd c x end_) 0x04)
        ∧ (1 ≤ body → body ≤ 4096 → nests →
          (n = 0 → is_ (.rep c n end_) { ran false [] with pc := end_ + 1 })
          ∧ (n ≠ 0 → is_ (.rep c n end_) { ran false [] with reps := level n.toNat :: q.reps, repEdge := true })
          ∧ ∀ x,
            let v := intOf (loOf (dreg q x))
            (v ≤ 0 → is_ (.repd c x end_) { ran false [x] with pc := end_ + 1 })
            ∧ (0 < v → is_ (.repd c x end_)
                { ran false [x] with reps := level (min v.toNat 65535) :: q.reps, repEdge := true }))))
  ∧ (∀ (s : State) (c : Nat), s.dev.alive = true → c < 64 → coreRuns s.dev c = true → (coreCtx s.dev c).custom = true →
      (coreAt s.dev c).regs.pc.toNat < 0x8000 →
      let out := fun (i : Instr) => exec i s = .next (s.after {} (coreFault c 0x01 (envOf {} s) s.dev))
      (∀ cond t, out (.br c cond t) ∧ out (.call c cond t) ∧ out (.ret c cond)) ∧ out (.done c)
      ∧ ∀ f : AFmt, f.wf .bare = true → out (.insnNop c f))
  ∧ ∀ r : CoreRegs,
    (r.slots = 0 → r.reps = [] → (advance r).pc = r.pc + 1 ∧ (advance r).slots = 0)
    ∧ (∀ l k, r.slots = 0 → r.reps = l :: k →
        (r.pc ≠ l.re → (advance r).pc = r.pc + 1 ∧ (advance r).reps = r.reps)
        ∧ (r.pc = l.re → 1 < l.rc.toNat →
            (advance r).pc = l.rs ∧ (advance r).reps = { l with rc := l.rc - 1 } :: k)
        ∧ (r.pc = l.re → l.rc.toNat ≤ 1 → (advance r).pc = r.pc + 1 ∧ (advance r).reps = k))
    ∧ (r.slots = 2 → (advance r).pc = r.pc + 1 ∧ (advance r).slots = 1 ∧ (advance r).target = r.target)
    ∧ (∀ t, r.slots = 1 → r.target = some t → (advance r).pc = t ∧ (advance r).slots = 0 ∧ (advance r).target = none
        ∧ ((advance r).reps = [] ∨ ∃ l k, (advance r).reps = l :: k ∧ l.rs.toNat ≤ t.toNat ∧ t.toNat ≤ l.re.toNat))
    ∧ (r.slots = 1 → r.target = none → (advance r).pc = r.pc + 1 ∧ (advance r).slots = 0)

/-- WAITX passes when every tag of its mask is free, DONE completes the task when every tag is; else the core waits.
XFER starts a transfer on a free tag within the task's scratch range and to a target the task may reach, and waits on a
busy one and for the transfers of an aborted task. XFER_COMPLETE: the oldest transfer of the core moves its words in
transactions of at most 64 beats and completes on its tag; one of an aborted task has sent some number of its words, a
free value (R326, R327, R338, R373, R379). An uncorrectable scratch word that a write reads loses the core (R313). -/
def Obligations.TransfersRunOnTheirTags : Prop :=
  ∀ (s : State) (c : Nat), s.dev.alive = true → c < 64 →
    let d := s.dev
    let e := envOf {} s
    let k := coreAt d c
    let q := k.regs
    let is_ := fun (i : Instr) (x : CoreState) => exec i s = .next (s.after {} (setCore c x d))
    let ran := fun (reads : List (BitVec 5)) =>
      advance (stamp (issueAt q reads none none 0 false false) none 0 false [] (applyLate q))
    (Issues d c false true → ∀ m,
      (busyTags k &&& m = 0 → is_ (.waitx c m) { k with regs := { ran [] with waitMask := none } })
      ∧ (busyTags k &&& m ≠ 0 → is_ (.waitx c m) { k with regs := { q with waitMask := some m, repEdge := false } }))
    ∧ (Issues d c true false →
      (busyTags k = 0 → exec (.done c) s = .next (s.after {} (finishTask c e d)))
      ∧ (busyTags k ≠ 0 → is_ (.done c) { k with regs := { q with doneWait := true, repEdge := false } }))
    ∧ (Issues d c false true → ∀ wr tag ps da n, 1 ≤ n.toNat → n.toNat ≤ 8192 →
      let i := Instr.xfer c wr tag ps da n
      let faults := fun (cause : Nat) => exec i s = .next (s.after {} (coreFault c cause e d))
      let a := (dreg q da).toNat % pow2 40
      let tgt := xTarget a n.toNat
      let free := mget none k.xfers tag.toNat = none ∧ k.dead = []
      let reach := ((∃ w, tgt = .word w) ∨ (∃ w, tgt = .sample w) ∨ ((∃ w, tgt = .dram w) ∧ (coreCtx d c).background = true))
        ∧ (wr = true → hitsBuffer (coreCtx d c).bufs tgt n.toNat = false)
      (¬free → is_ i { k with regs := { q with stalled := true, repEdge := false } })
      ∧ (free → effAddr q ps.toNat = none → faults 0x0A)
      ∧ (free → ∀ w, effAddr q ps.toNat = some w →
          let inside := q.sb ≤ w ∧ w + n.toNat ≤ q.sb + q.sl
          (¬inside → faults 0x02)
          ∧ (inside → ¬reach → faults 0x05)
          ∧ (inside → reach →
              let x : Xfer := { write := wr, scratch := w, count := n.toNat, addr := a, ord := nextOrd k }
              is_ i { k with regs := ran [da], xfers := mset none k.xfers tag.toNat (some x) })))
    ∧ ∀ tag : BitVec 2,
      let ends := fun (x : Device) => exec (.xferComplete c tag) s = .next (s.after {} x)
      (oldestXfer k = none → ends d)
      ∧ ∀ h t x, oldestXfer k = some (h, t, x) →
        let bg := xferBg d c h
        let words := (List.range x.count).map (fun i => x.scratch + i)
        let o := runParts (xferParts c bg x (xferWords k x)) x.count e d
        let y := if x.write then o.d
          else modCore c (putScratch (o.words.zipIdx.map (fun p => (x.scratch + p.2, p.1)))
            (fun w => decide (x.scratch ≤ w) && decide (w < x.scratch + x.count))) o.d
        (t ≠ tag.toNat ∨ xferStuck d (xferParts c bg x []) = true → ends d)
        ∧ (t = tag.toNat → xferStuck d (xferParts c bg x []) = false →
            (h = .dead → ∃ n, (x.write = true → n ≤ x.data.length) ∧ (x.write = false → n = x.count)
              ∧ ends (modCore c (fun z => { z with dead := z.dead.filter (fun p => p.2.ord ≠ x.ord) })
                (runParts (xferParts c bg x x.data) n e { d with free := d.free + 1 }).d))
            ∧ (h ≠ .dead → x.write = true → (∃ w ∈ words, w ∈ k.bad) → ∃ w ∈ words, w ∈ k.bad ∧ ends (coreEcc c w e d))
            ∧ (h ≠ .dead → x.write = false ∨ (∀ w ∈ words, w ∉ k.bad) →
                ends (if h = .saved then xferAfterSaved c t o.err y else xferAfter c t o.err e y)))
        ∧ (x.write = true → (∀ w ∈ words, w ∉ k.bad) → ∀ a, xTarget x.addr x.count = .word a →
            o.err = false ∧ o.d.cores = d.cores
            ∧ (∀ i, i < x.count → mget 0 o.d.mem.store (a + i) = mget 0 k.scratch (x.scratch + i))
            ∧ ∀ w, (w < a ∨ a + x.count ≤ w) → mget 0 o.d.mem.store w = mget 0 d.mem.store w)
        ∧ (x.write = false → ∀ a, xTarget x.addr x.count = .word a → (∀ w, a ≤ w → w < a + x.count → w ∉ d.mem.bad) →
            o.err = false ∧ o.d = d
            ∧ (∀ i, i < x.count → mget 0 (coreAt y c).scratch (x.scratch + i) = mget 0 d.mem.store (a + i))
            ∧ ∀ w, (w < x.scratch ∨ x.scratch + x.count ≤ w) →
                mget 0 (coreAt y c).scratch w = mget 0 k.scratch w)

/-- Every core instruction that the encodings of R351 to R354 admit reads back from its word on its core, with every
operand at every value; and a word that spells an instruction is the word of it, so no word has two meanings and no
reserved bit is set. -/
def Obligations.CoreWordsReadBack : Prop :=
  (∀ i w, wellFormed i = true → encodeCoreWord i = some w → ∃ c, c < 64 ∧ decodeCoreWord c w = some i)
  ∧ ∀ c i w, decodeCoreWord c w = some i → encodeCoreWord i = some w ∧ (c < 64 → wellFormed i = true)

/-! ## On-chip memory errors and the DRAM channels (chapters 12, 13) -/

/-- ECC_WRITEBACK: the write-back of a corrected word counts it once, by its memory (R356); that of an instruction word
is silent (R321). DRAM_ECC_WRITEBACK: a corrected DRAM word leaves the waiting list in an idle moment, through its bank
(R390, R395). An uncorrectable shared-store word reads with SLVERR and is named for the count, and a partial write
leaves it bad (R356). -/
def Obligations.CorrectedWordsAreWrittenBackAndCounted : Prop :=
  ∀ s : State, s.dev.alive = true →
    let d := s.dev
    let left := fun (p : UpsetAt) => d.mem.wb.filter (· ≠ p)
    let is_ := fun (p : UpsetAt) (x : Device) => exec (.eccWriteback p) s = .next (s.after {} x)
    let mem := fun (m : MemState) => { d with mem := m }
    (∀ p, (∀ c w, p ≠ .scratch c w) → p ∉ d.mem.wb → is_ p d)
    ∧ (∀ b w, .bay b w ∈ d.mem.wb → is_ (.bay b w) (mem { d.mem with wb := left (.bay b w), bayCe := inc32 d.mem.bayCe }))
    ∧ (∀ b n, .entry b n ∈ d.mem.wb →
        is_ (.entry b n) (mem { d.mem with wb := left (.entry b n), bayCe := inc32 d.mem.bayCe }))
    ∧ (∀ w, .store w ∈ d.mem.wb → is_ (.store w) (mem { d.mem with wb := left (.store w), ssCe := inc32 d.mem.ssCe }))
    ∧ (∀ c a, .imem c a ∈ d.mem.wb → is_ (.imem c a) (mem { d.mem with wb := left (.imem c a) }))
    ∧ (∀ c w, w ∉ (coreAt d c).soft → is_ (.scratch c w) d)
    ∧ (∀ c w, w ∈ (coreAt d c).soft → is_ (.scratch c w) (modCore c (fun k => { k with soft := k.soft.filter (· ≠ w) })
        (mem { d.mem with scrCe := inc32 d.mem.scrCe })))
    ∧ (∀ ch w,
        let due := w ∈ (dchAt d ch).wb ∧ dramUsable d ch = true ∧ dramBusy d ch = false
        (due → exec (.dramEccWriteback ch w) s = .next (s.after {}
          (dramTouch ch (8 * w / 64 * 64) 1 (modDch ch (fun c => { c with wb := c.wb.filter (· ≠ w) }) d))))
        ∧ (¬due → exec (.dramEccWriteback ch w) s = .next (s.after {} d)))
    ∧ (∀ w x, (storeGet w x).data = mget 0 x.mem.store w ∧ (storeGet w x).dev = x
        ∧ (w ∉ x.mem.bad → (storeGet w x).code = 0 ∧ (storeGet w x).ue = [])
        ∧ (w ∈ x.mem.bad → (storeGet w x).code = 2 ∧ (storeGet w x).ue = [w]
            ∧ (ueStore w x).mem.ssUe = inc32 x.mem.ssUe ∧ (ueStore w x).mem.ssAddr = BitVec.ofNat 32 w
            ∧ (ueStore w x).mem.store = x.mem.store))
    ∧ ∀ c w v m x, w ∉ c → w ∈ x.mem.bad → m ≠ 0 → m ≠ 0x1FF →
        storePut c w v m x = { code := 2, dev := x, ue := [w] }

/-- The events of a DRAM channel. REFRESH_DUE: a refresh is issued in an idle moment, and then the scrub reads its
block; it is postponed up to eight. DRAM_TEMP_READ, ZQ_SHORT_CAL: maintenance waits for an idle moment.
BANK_IDLE_PRECHARGE: an idle bank closes its row. ALERT_PARITY, ALERT_N_HIGH: a parity alert waits for ALERT_N and is
replayed three times. ALERT_STUCK: a stuck one fails the channel. DRAM_INIT_DONE: a channel initialises once, or fails
with its lane. SELF_REFRESH_RETRY: self-refresh is entered anew in the quiet state (R386, R387, R390, R392 to R397,
R400). -/
def Obligations.DramChannelFollowsItsEvents : Prop :=
  ∀ (s : State) (ch : Nat), s.dev.alive = true →
    let d := s.dev
    let e := envOf {} s
    let c := dchAt d ch
    let is_ := fun (i : Instr) (x : Device) => exec i s = .next (s.after {} x)
    let mod := fun (x : DramChan) => modDch ch (fun _ => x) d
    let on := dramUsable d ch = true
    let free := dramBusy d ch = false
    let scrub := (cfg d).scrubEn = true
    let closed := { c with rows := [], retry := (2 * pow2 40 :: c.retry).take 16 }
    let waits := c.selfRef ≠ 1
    (¬on ∨ c.selfRef = 1 → is_ (.refreshDue ch) d)
    ∧ (on → waits → free → ¬scrub → is_ (.refreshDue ch) (mod { closed with owed := 0 }))
    ∧ (on → waits → free → scrub → is_ (.refreshDue ch) (scrubBlock ch e (mod { closed with owed := 0 })))
    ∧ (on → waits → ¬free → dramHeld d ch = true → c.owed < 8 → is_ (.refreshDue ch) (mod { c with owed := c.owed + 1 }))
    ∧ (on → waits → ¬free → dramHeld d ch = false → c.owed < 8 → is_ (.refreshDue ch) (mod closed))
    ∧ (on → waits → ¬free → 8 ≤ c.owed → is_ (.refreshDue ch) d)
    ∧ (∀ hot, dramIdle d ch = false → is_ (.dramTempRead ch hot) d)
    ∧ (dramIdle d ch = true → is_ (.dramTempRead ch true) (mod { c with hot := true, cool := 0, hotCnt := inc32 c.hotCnt }))
    ∧ (dramIdle d ch = true → is_ (.dramTempRead ch false)
        (mod { c with cool := min 2 (c.cool + 1), hot := c.hot && decide (c.cool = 0) }))
    ∧ (dramIdle d ch = true → is_ (.zqShortCal ch) (mod { c with zq := c.zq + 1 }))
    ∧ (dramIdle d ch = false → is_ (.zqShortCal ch) d)
    ∧ (∀ b, is_ (.bankIdlePrecharge ch b) (mod { c with rows := mset none c.rows b none }))
    ∧ (¬on → is_ (.alertParity ch) d)
    ∧ (on → c.replays < 3 → is_ (.alertParity ch) (mod { c with alert := true }))
    ∧ (on → 3 ≤ c.replays →
        let ca := match c.retry with | x :: _ => x % pow2 40 | [] => 0
        let m := match mget none d.xbar.serving ch with | some p => p.req.master | none => 31
        is_ (.alertParity ch) (noteCause causeEcc
          (modDch ch (fun y => { y with alert := false, replays := 0, failNow := true }) (dramLog ch 2 ca m e d))))
    ∧ (c.alert = false → is_ (.alertNHigh ch) d ∧ is_ (.alertStuck ch) d)
    ∧ (c.alert = true → is_ (.alertNHigh ch)
        (mod { c with alert := false, rows := [], replays := c.replays + 1, replayCnt := inc32 c.replayCnt }))
    ∧ (c.alert = true → ¬on → is_ (.alertStuck ch) d)
    ∧ (c.alert = true → on → ∃ lane, lane < 16 ∧
        let x := dramLog ch 2 0 31 e (modDch ch (fun _ => { c with failed := some lane }) { d with free := d.free + 1 })
        is_ (.alertStuck ch) (noteCause causeEcc { x with pwr := { x.pwr with dramFail := some (ch, lane) } }))
    ∧ (d.pwr.quiet = true → c.selfRef = 2 → is_ (.selfRefreshRetry ch) (selfRefEnter ch d))
    ∧ (d.pwr.quiet = false ∨ c.selfRef ≠ 2 → is_ (.selfRefreshRetry ch) d)
    ∧ (∀ cf l, (2 ≤ ch ∨ d.pwr.sramClear = false ∨ c.ready = true ∨ c.failed.isSome = true) → is_ (.dramInitDone ch cf l) d)
    ∧ (∀ cf, ch < 2 → d.pwr.sramClear = true → c.ready = false → c.failed = none → cf ≤ 4 →
        is_ (.dramInitDone ch cf none) (mod { c with ready := true, det := cf })
        ∧ ∀ l,
          let x := dramLog ch 3 0 31 e (mod { c with failed := some l, det := cf })
          is_ (.dramInitDone ch cf (some l)) { x with pwr := { x.pwr with dramFail := x.pwr.dramFail.or (some (ch, l)) } })
    ∧ ∀ cf l, ch < 2 → d.pwr.sramClear = true → c.ready = false → c.failed = none → 4 < cf →
        let x := dramLog ch 3 0 31 e (mod { c with failed := some (l.getD 0), det := c.det })
        is_ (.dramInitDone ch cf l) { x with pwr := { x.pwr with dramFail := x.pwr.dramFail.or (some (ch, l.getD 0)) } }

/-! ## Decimation chains and the power stage (chapters 05, 06) -/

/-- BS_STUCK: 4,096 equal bits of a running chain are reported with their level, and the channels that the chain serves
go to SAFE (R207). TD_ASSERT, TD_RELEASE: a frame of the chain asserts a detector, whose action follows, and TD_HOLD
frames on the clearing side release it, each with its event (R208, R297). DEC_FILL_DONE: a chain in reset whose filters
are full fades in and completes (R209). -/
def Obligations.DecimationChainsReportWhatTheyFind : Prop :=
  ∀ (s : State) (n : Nat), s.dev.alive = true → n < 40 →
    let d := s.dev
    let e := envOf {} s
    let c := decAt d n
    let is_ := fun (i : Instr) (x : Device) => exec i s = .next (s.after {} x)
    let fill := setDec n { c with reset := 0, fill := 0, fade := 1, resetUid := none } d
    (∀ level, c.stuckRun = some level → c.running = true → is_ (.bsStuck n) (forAll (chainServes d n) (toSafe 4 e)
      (raise 0x2014 (0x20 + n) (leBytes 1 level.toNat) e
        (setDec n { c with stuckRun := none, stuck := decide (4096 ≤ c.eqBits) } d))))
    ∧ (c.stuckRun = none ∨ c.running = false → is_ (.bsStuck n) d)
    ∧ (∀ lo : Bool,
        let t := if lo then c.lo else c.hi
        let with_ := fun (u : Detector) => setDec n (if lo then { c with lo := u } else { c with hi := u }) d
        let on := with_ { t with asserted := true, below := 0 }
        let off := with_ { t with asserted := false, below := 0 }
        let hits := c.running = true ∧ t.asserted = false ∧ tdHits lo t c.frame = true
        let clears := t.asserted = true ∧ t.hold ≤ t.below ∧ tdHits lo t c.frame = false
        let acts := raise 0x4005 (0x20 + n) (leBytes 1 lo.toNat ++ leBytes 1 t.act ++ leBytes 2 t.mask.toNat) e
        let seen := acts on
        (hits → t.act = 0 → is_ (.tdAssert n lo) (raise 0x100C (0x20 + n) (leBytes 1 lo.toNat ++ [0]) e on))
        ∧ (hits → t.act ≠ 0 → (t.act ≠ 2 ∨ d.pwr.spoke = false) → is_ (.tdAssert n lo) seen)
        ∧ (hits → t.act = 2 → d.pwr.spoke = true → is_ (.tdAssert n lo)
            (forAll ((List.range 16).filter (fun m => t.mask.getLsbD m && pchConfigured seen m)) (toSafe 3 e) seen))
        ∧ (¬hits → is_ (.tdAssert n lo) d)
        ∧ (clears → t.act ≠ 0 → is_ (.tdRelease n lo) (acts off))
        ∧ (clears → t.act = 0 → is_ (.tdRelease n lo) (raise 0x100C (0x20 + n) (leBytes 1 lo.toNat ++ [1]) e off))
        ∧ (¬clears → is_ (.tdRelease n lo) d))
    ∧ (c.reset = 3 → c.resetUid = none → is_ (.decFillDone n) fill)
    ∧ (∀ u, c.reset = 3 → c.resetUid = some u → is_ (.decFillDone n) (finishUid u 0 [] e fill))
    ∧ (c.reset ≠ 3 → is_ (.decFillDone n) d)

/-- The events of a power channel (R187, R192 to R194, R198 to R200, R212, R213). OC_COMPARATOR, I_SENSE_TRIP: a
crossing of OC_THR, or of the current limit, takes the gates of a driven channel low, is counted and trips once; in a
diagnosis it is a trip of its phase. CM_UP_DONE, CM_DOWN_DONE: the end of a common-mode ramp plays or stops.
OC_WAIT_EXPIRE: 300 frames in OC_WAIT retry. RC_CLEAR: 600 frames in PLAY clear the retry count. PCH_RESET_DONE: a
function reset returns to OFF. RE_WINDOW_END: the resistance of a full window corrects the coil temperature, or is
reported. -/
def Obligations.PowerChannelEventsMoveItsState : Prop :=
  ∀ (s : State) (n : Nat), s.dev.alive = true →
    let d := s.dev
    let e := envOf {} s
    let p := pchAt d n
    let is_ := fun (i : Instr) (x : Device) => exec i s = .next (s.after {} x)
    (pchConfigured d n = false → is_ (.ocComparator n) d ∧ is_ (.iSenseTrip n) d ∧ is_ (.cmUpDone n) d
      ∧ is_ (.cmDownDone n) d ∧ is_ (.ocWaitExpire n) d ∧ is_ (.rcClear n) d ∧ is_ (.pchResetDone n) d
      ∧ is_ (.reWindowEnd n) d)
    ∧ (pchConfigured d n = true →
      let driven := p.st = .cmUp ∨ p.st = .play ∨ p.st = .cmDown
      let idle := raiseLim n 0x2009 (0x50 + n) [] e (setPch n { p with ocIdle := inc32 p.ocIdle } d)
      let trips := driven ∧ p.ocIgnored = false ∧ p.trip = none
      let above := p.i.any (fun v => flt (fmul (f36Rat 5 4) (iMax d n)) (fabs v)) = true
      let still := p.resetting = none ∧ p.trip = none
      let hit := fun (g : Diag) => modDiag g.ridx (fun y =>
        { y with ocHit := if y.ocHit.contains n then y.ocHit else n :: y.ocHit })
      (p.st = .off ∨ p.st = .latched ∨ p.st = .safe → is_ (.ocComparator n) idle)
      ∧ (p.st = .ocWait → is_ (.ocComparator n) d)
      ∧ (p.st = .diag → diagOf d n = none → is_ (.ocComparator n) d)
      ∧ (p.st = .diag → ∀ g, diagOf d n = some g → p.gatesLow = true → is_ (.ocComparator n) idle)
      ∧ (p.st = .diag → ∀ g, diagOf d n = some g → p.gatesLow = false → is_ (.ocComparator n) (hit g d))
      ∧ (trips → is_ (.ocComparator n)
          (modPch n (fun q => { q with trip := some 0, ocIgnored := true, ocComp := inc32 q.ocComp }) (gatesOff n d)))
      ∧ (driven → ¬trips → is_ (.ocComparator n) d)
      ∧ (trips → above → is_ (.iSenseTrip n)
          (modPch n (fun q => { q with trip := some 1, ocIgnored := true, ocSense := inc32 q.ocSense }) (gatesOff n d)))
      ∧ (p.st = .diag → p.gatesLow = false → above → ∀ g, diagOf d n = some g → is_ (.iSenseTrip n) (hit g (gatesOff n d)))
      ∧ (p.st = .diag → (p.gatesLow = true ∨ ¬above ∨ diagOf d n = none) → is_ (.iSenseTrip n) d)
      ∧ (p.st ≠ .diag → (¬trips ∨ ¬above) → is_ (.iSenseTrip n) d)
      ∧ (p.st = .cmUp → still → cmPeriods p ≤ p.q →
          let q := { p with
            ramp := if p.retry then .linear 0 (pcfg p 3).retryRamp else .fadeIn, e1 := 0, e2 := 0, waited := 0, svi := 0
            sii := 0, winFrames := 0, lpV := {}, lpI := {} }
          let x := pchMove n .play 0 e (setPch n q d)
          is_ (.cmUpDone n) (if p.waitStart then pchFinish n 0 e x else x))
      ∧ (p.st ≠ .cmUp ∨ ¬still ∨ p.q < cmPeriods p → is_ (.cmUpDone n) d)
      ∧ (p.st = .cmDown → still → p.q = 0 → p.ramp ≠ .fadeOut →
          let x := pchMove n .off 0 e (gatesOff n d)
          is_ (.cmDownDone n) (if p.waitStart then x else pchFinish n 0 e x))
      ∧ (p.st ≠ .cmDown ∨ ¬still ∨ p.q ≠ 0 ∨ p.ramp = .fadeOut → is_ (.cmDownDone n) d)
      ∧ (p.st = .ocWait → 300 ≤ p.waited → is_ (.ocWaitExpire n)
          (pchMove n .cmUp 8 e (setPch n { p with q := 0, retry := true, ocIgnored := false, waited := 0 } d)))
      ∧ (p.st ≠ .ocWait ∨ p.waited < 300 → is_ (.ocWaitExpire n) d)
      ∧ (p.st = .play → p.trip = none → 600 ≤ p.waited → is_ (.rcClear n) (setPch n { p with rc := 0 } d))
      ∧ (p.st ≠ .play ∨ p.trip ≠ none ∨ p.waited < 600 → is_ (.rcClear n) d)
      ∧ (p.resetting = some 4 → is_ (.pchResetDone n) (pchFinish n 0 e (pchReturn n e (pchMove n .off 9 e
          (modPch n (fun q => { q with q := 0, waited := 0, ocIgnored := false, trip := none }) (gatesOff n d))))))
      ∧ (p.resetting ≠ some 4 → is_ (.pchResetDone n) d)
      ∧ (p.st ≠ .play ∨ p.winFrames < (pcfg p 1).reWin → is_ (.reWindowEnd n) d)
      ∧ (p.st = .play → (pcfg p 1).reWin ≤ p.winFrames →
          let c := pcfg p 1
          let again := { p with svi := 0, sii := 0, winFrames := 0 }
          let weak := flt (fdiv p.sii (fint (c.reWin * nSmp d))) (fmul c.reImin c.reImin) = true
          let re := fdiv p.svi p.sii
          let odd := flt re (fmul fHalf c.re0) = true ∨ flt (fmul (fint 3) c.re0) re = true
          let tm := fadd c.t0 (fdiv (fsub (fdiv re c.re0) fOne) c.alpha)
          (weak → is_ (.reWindowEnd n) (setPch n again d))
          ∧ (¬weak → odd → is_ (.reWindowEnd n) (raise 0x200A (0x50 + n)
              (leBytes 4 (uext 32 (dyRound (toDy (fmul re (fint 100)))))) e (setPch n again d)))
          ∧ (¬weak → ¬odd → is_ (.reWindowEnd n)
              (hotCheck n e (setPch n { again with reMeas := re, tc := fadd p.tc (fmul c.reK (fsub tm p.tc)) } d))))
      ∧ (∀ x, (pchAt (hotCheck n e x) n).hot = fle (pcfg (pchAt x n) 1).tMax (pchAt x n).tc)
      ∧ (∀ st cause x, (pchAt x n).st = st → pchMove n st cause e x = x)
      ∧ (∀ x, (pchAt (gatesOff n x) n).gatesLow = true ∧ (pchAt (gatesOff n x) n).widths = []))

/-- DIAG_PHASE_END: every diagnosis whose phase is over goes on to its next phase, with its results so far, and ends
after the sixth (R195, R196). RAIL_LOW, RAIL_OVER: a rail below its limit for six frames, or above 1.05 times its limit,
puts its channels in SAFE and takes its reference to zero (R204). LIMIT_COMMITTED: the oldest programmed limit record is
read back and takes effect, or not (R221). The power commands at their AF: PCH_START, PCH_STOP, PCH_DIAG, PCH_CLEAR,
LIMIT_COMMIT (R192, R194, R195, R197, R220, R284; the states that R192 does not list: log 122; a second commit: log
127). -/
def Obligations.PowerCommandsRailsAndLimits : Prop :=
  (∀ s : State, s.dev.alive = true →
    let d := s.dev
    let e := envOf {} s
    let is_ := fun (i : Instr) (x : Device) => exec i s = .next (s.after {} x)
    let fault := fun (g kind : Nat) =>
      modRail g (fun r => { r with rho := 0, lowFrames := 0 })
        (forAll (groupChans d g) (toSafe kind e) (raise 0x4004 (0x75 + g) (leBytes 1 g ++ leBytes 1 kind) e d))
    is_ .diagPhaseEnd (forAll d.psc.diags (fun g x => diagAdvance g e x) d)
    ∧ (∀ g x, diagOver x g = false → diagAdvance g e x = x)
    ∧ (∀ g x, diagOver x g = true → g.phase < 5 →
        let pass := (diagChans g).filter (fun n => (mget none g.res n).isNone)
        let res := pass.foldl (fun m n => mset none m n (diagCheck x g n)) g.res
        let x0 := if g.phase = 3 ∧ g.ocHit ≠ [] then { x with free := x.free + 16 } else x
        let x1 := if g.phase = 4 then forAll pass (fun n y => modPch n (fun p => { p with diagZ := diagZof g n }) y) x0 else x0
        let x2 := forAll pass (fun n y => when (mget none res n).isSome (gatesOff n) y) x1
        let h := { g with res := res, phase := g.phase + 1, frames := 0, ocHit := [], vHit := [] }
        diagAdvance g e x = forAll (diagChans g) (emitDiag h) (modDiag g.ridx (fun _ => h) x2))
    ∧ (∀ g x, diagOver x g = true → 5 ≤ g.phase →
        (diagAdvance g e x).psc.diags = x.psc.diags.filter (fun y => y.ridx ≠ g.ridx))
    ∧ (∀ g, g < 4 → 6 ≤ (railAt d g).lowFrames → is_ (.railLow g) (fault g 1))
    ∧ (∀ g, 4 ≤ g ∨ (railAt d g).lowFrames < 6 → is_ (.railLow g) d)
    ∧ (∀ g, g < 4 → railOver d g = true → is_ (.railOver g) (fault g 2))
    ∧ (∀ g, 4 ≤ g ∨ railOver d g = false → is_ (.railOver g) d)
    ∧ (∀ ok, d.jrn.committing = [] → is_ (.limitCommitted ok) d)
    ∧ (∀ u r l, d.jrn.committing = (u, r) :: l → is_ (.limitCommitted false) (finishUid u 0x121 [r.count] e
        { d with jrn := { d.jrn with slots := d.jrn.slots ++ [{ r with valid := false }], committing := l } }))
    ∧ (∀ u r l, d.jrn.committing = (u, r) :: l →
        let x := { d with jrn := { d.jrn with slots := d.jrn.slots ++ [{ r with valid := true }], committing := l } }
        let low := limitLowers d x
        let y := railCaps e (when low (modPend u (fun p => { p with clamped := p.clamped + 1 })) (limitApply x))
        is_ (.limitCommitted true) (finishUid u 0 [r.count] e
          (raise 0x1009 0x00 (leBytes 1 r.count ++ [0] ++ leBytes 4 r.tag.toNat) e y))))
  ∧ ∀ (p : Pend) (due : Option (List Nat)) (e : Env) (d : Device),
    let n := p.d.func.toNat - 0x50
    let q := pchAt d n
    let is_ := fun (x : Device) => applyCmd p due e d = { dev := x, status := none }
    let ends := fun (st : Nat) => is_ (finishUid p.uid st [] e d)
    let idle := d.jrn.committing = []
    let here := q.resetting = none
    let due := pchDue q
    (p.opcode = 0x0400 → ¬idle → ends 0x11A)
    ∧ (p.opcode = 0x0400 → idle → q.resetting.isSome = true → ends 0)
    ∧ (p.opcode = 0x0400 → idle → here → due = .off → q.diagOk = false → ends 0x119)
    ∧ (p.opcode = 0x0400 → idle → here → (due = .play ∨ due = .cmUp) → ends 0)
    ∧ (p.opcode = 0x0400 → idle → here → ((due = .off ∧ q.diagOk = true) ∨ due = .cmDown) →
        is_ (pchSchedule n true p.uid e d))
    ∧ (p.opcode = 0x0400 → idle → here → (due = .diag ∨ due = .ocWait ∨ due = .latched ∨ due = .safe) → ends 0x118)
    ∧ (p.opcode = 0x0401 → q.resetting.isSome = true ∨ due = .cmDown →
        is_ (modPch n (fun x => { x with waitCmd := some p.uid, waitStart := false }) (pchFinish n 2 e d)))
    ∧ (p.opcode = 0x0401 → here → due = .off → ends 0)
    ∧ (p.opcode = 0x0401 → here → (due = .play ∨ due = .cmUp) → is_ (pchSchedule n false p.uid e d))
    ∧ (p.opcode = 0x0401 → here → (due = .diag ∨ due = .latched ∨ due = .safe) → ends 0x118)
    ∧ (p.opcode = 0x0401 → here → due = .ocWait → is_ (finishUid p.uid 0 [] e
        (modPch n (fun x => { x with ocIgnored := false, waited := 0 }) (pchFinish n 2 e (pchMove n .off 0 e d)))))
    ∧ (p.opcode = 0x0403 → q.resetting.isSome = true → ends 0)
    ∧ (p.opcode = 0x0403 → here → q.st = .off → is_ (finishUid p.uid 0 [] e (setPch n { q with diagOk := false } d)))
    ∧ (p.opcode = 0x0403 → here → q.st = .safe → safeCause d n = true → ends 0x118)
    ∧ (p.opcode = 0x0403 → here → q.st = .safe → safeCause d n = false →
        is_ (finishUid p.uid 0 [] e (pchMove n .off 0 e (setPch n { q with diagOk := false } d))))
    ∧ (p.opcode = 0x0403 → here → q.st = .latched →
        is_ (finishUid p.uid 0 [] e (pchMove n .off 0 e (setPch n { q with diagOk := false, ocIgnored := false } d))))
    ∧ (p.opcode = 0x0403 → here → (q.st = .diag ∨ pchActive d n = true) → ends 0x118)
    ∧ (p.opcode = 0x0404 →
        let used := d.jrn.slots.length + d.jrn.committing.length
        let driven := (List.range 16).any (pchActive d) = true
        (16 ≤ used → ends 0x120) ∧ (used < 16 → driven → ends 0x118)
        ∧ (used < 16 → ¬driven → ∃ r, is_ { d with jrn := { d.jrn with committing := d.jrn.committing ++ [(p.uid, r)] } }
            ∧ r.count = used + 1 ∧ r.fn = e.fn))
    ∧ (p.opcode = 0x0402 →
        let g := (diagParse (BitVec.ofNat 16 (argN p.d 0x20 2)) p.uid (p.operand.getD [])).1
        (¬idle → is_ (finishUid g.ridx 0x11A [] e d))
        ∧ (idle → diagBusy d g.mask = true → is_ (finishUid g.ridx 0x118 [] e d))
        ∧ (idle → diagBusy d g.mask = false → ∃ t, is_ t ∧ t.psc.diags = d.psc.diags ++ [g]))

/-! ## Redundant hubs (chapter 07) -/

/-- What arrives on the drawbar (R134, R222, R227, R230 to R232, R236 to R239, R247 to R250). STATUS_RX takes the peer's
state and acknowledgement, and leaves a standby with another image UNFIT; MIRROR_RX takes mirrors in their order and
keeps those beyond a gap; MIRROR_DONE_RX compares completions; SOURCE_RX keeps an owner's frame; RESYNC_REQ_RX,
RESYNC_DATA_RX serve and take copies; WITHDRAW_RX and HANDOVER_RX note their notices. MISSED_HEARTBEAT, DRAWBAR_BACK,
MIRROR_DONE_TIMEOUT: what a message that does not arrive, or arrives again, means. A device that is no hub of a pair
takes none. -/
def Obligations.DrawbarMessagesActOnThePair : Prop :=
  ∀ s : State, s.dev.alive = true →
    let d := s.dev
    let e := envOf {} s
    let p := d.pair
    let hub := hubOfPair d = true
    let act_ := isActive p = true
    let is_ := fun (i : Instr) (x : Device) => exec i s = .next (s.after {} x)
    let with_ := fun (q : PairState) => { d with pair := q }
    (¬hub → (∀ m, is_ (.statusRx m) d) ∧ is_ .missedHeartbeat d ∧ is_ .drawbarBack d ∧ (∀ m st, is_ (.mirrorDoneRx m st) d)
      ∧ (∀ m, is_ (.mirrorDoneTimeout m) d) ∧ (∀ a k x, is_ (.sourceRx a k x) d) ∧ (∀ n l, is_ (.resyncReqRx ⟨n, l⟩) d)
      ∧ (∀ n t i, is_ (.resyncDataRx n t i) d) ∧ (∀ c, is_ (.withdrawRx c) d) ∧ (∀ f, is_ (.handoverRx f) d)
      ∧ ∀ m af r k b h, exec (.mirrorRx m af r k b h) s = .next (s.after h d))
    ∧ (∀ m, hub → m.from_ ≠ 3 - (cfg d).pairId → is_ (.statusRx m) d)
    ∧ (∀ m, hub → m.from_ = 3 - (cfg d).pairId → ∃ t, is_ (.statusRx m) t
        ∧ t.pair.peer = some m ∧ t.pair.gotStatus = true
        ∧ t.pair.statusSilence = (if m.active then 0 else p.statusSilence)
        ∧ t.pair.peerUnfit = (if m.active then !m.fit else p.peerUnfit)
        ∧ t.pair.unacked = (if m.active then p.unacked else p.unacked.filter (fun q => later q.1 m.mseq))
        ∧ (let lost := p.up = false ∧ (3 ≤ p.missed ∨ p.st = .detached)
          (lost → t.pair.missed = p.missed ∧ t.pair.up = false) ∧ (¬lost → t.pair.missed = 0 ∧ t.pair.up = true))
        ∧ (let other := isStandby p = true ∧ m.active = true ∧ m.img ≠ (cfg d).digest
          (other → t.pair.st = .unfit) ∧ (¬other → t.pair.st = p.st)))
    ∧ (hub → p.gotStatus = true → is_ .missedHeartbeat d)
    ∧ (hub → p.gotStatus = false → (add32 p.missed 1 < 3 ∨ p.up = false) →
        is_ .missedHeartbeat (with_ { p with missed := add32 p.missed 1 }))
    ∧ (hub → p.gotStatus = false → 3 ≤ add32 p.missed 1 → p.up = true →
        let lost := with_ { p with missed := add32 p.missed 1, up := false }
        (isSync p = false → p.st ≠ .resync → is_ .missedHeartbeat (raise 0x200C 0x03 [] (atTick e) lost))
        ∧ (isSync p = true → 3 ≤ p.streamSilence → is_ .missedHeartbeat lost)
        ∧ (isSync p = true → p.streamSilence < 3 → ∃ t, is_ .missedHeartbeat t ∧ t.pair.st = .detached
            ∧ t.pair.singleFit = true ∧ t.pair.up = false ∧ t.pair.cause = causeDrawbar)
        ∧ (p.st = .resync → ∃ t, is_ .missedHeartbeat t ∧ t.pair.st = .detached ∧ t.pair.singleFit = false
            ∧ t.pair.items = [] ∧ t.pair.up = false))
    ∧ (hub → (p.up = true ∨ p.gotStatus = false) → is_ .drawbarBack d)
    ∧ (hub → p.up = false → p.gotStatus = true →
        let back := raise 0x1008 0x03 [] (atTick e) (with_ { p with up := true, missed := 0 })
        is_ .drawbarBack (if p.st = .detached then enterResync causeDrawbar (atTick e) back else back))
    ∧ (∀ m af r k b h, hub →
        let next := m = p.mseq + 1 ∨ p.st = .stopped
        let ends := fun (x : Device) => exec (.mirrorRx m af r k b h) s = .next (s.after h x)
        (act_ ∨ later m p.mseq = false → ends d)
        ∧ (¬act_ → later m p.mseq = true → next → ends (takeAhead false (envOf h s) (mirrorTake m af r k b (envOf h s) d)))
        ∧ (¬act_ → later m p.mseq = true → ¬next → ends (with_ { p with ahead := aheadAdd (m, af, r, k, b) p.ahead })))
    ∧ (∀ all x, x.pair.ahead = [] → takeAhead all e x = x)
    ∧ (∀ m (st : BitVec 16), hub → act_ → is_ (.mirrorDoneRx m st) d)
    ∧ (∀ m (st : BitVec 16), hub → ¬act_ → ∀ q, p.ownDone.find? (fun x => x.1 = m) = some q →
        let x := with_ { p with ownDone := p.ownDone.filter (fun y => y.1 ≠ m) }
        (q.2.1 = st.toNat → is_ (.mirrorDoneRx m st) x)
        ∧ (q.2.1 ≠ st.toNat → is_ (.mirrorDoneRx m st) (mirrorDiff m st.toNat q.2.1 e x)))
    ∧ (∀ m (st : BitVec 16), hub → ¬act_ → p.ownDone.find? (fun x => x.1 = m) = none →
        let waits := (∃ c ∈ d.cmd.queue, c.mseq = some m ∧ c.fromMirror = true) ∧ ∀ q ∈ p.peerDone, q.1 ≠ m
        (waits → is_ (.mirrorDoneRx m st) (with_ { p with peerDone := p.peerDone ++ [(m, st.toNat)] }))
        ∧ (¬waits → is_ (.mirrorDoneRx m st) d))
    ∧ (∀ m,
        let past_ := hub ∧ (isSync p = true ∨ p.st = .resync)
          ∧ ∃ q, p.ownDone.find? (fun x => x.1 = m) = some q ∧ 6 ≤ (s.fc.fn + 1 - q.2.2).toNat
        (past_ → is_ (.mirrorDoneTimeout m) (enterResync causeMirror (atTick e)
          (takeAhead true (atTick e) (raise 0x2013 0 (leBytes 4 m.toNat) (atTick e) d))))
        ∧ (¬past_ → is_ (.mirrorDoneTimeout m) d))
    ∧ (∀ a k x, hub → (a ∉ localSrcs ∨ ownsSrc d a = true) → is_ (.sourceRx a k x) d)
    ∧ (∀ a k x, hub → a ∈ localSrcs → ownsSrc d a = false → is_ (.sourceRx a k x) { d with inp := { d.inp with
        ownerFrames := d.inp.ownerFrames.filter (fun f => !(f.1 = a && f.2.1 = k)) ++ [(a, k, x)] } })
    ∧ (∀ n l, hub → (¬act_ ∨ 3 < n) → is_ (.resyncReqRx ⟨n, l⟩) d)
    ∧ (∀ n l, hub → act_ → n ≤ 3 → is_ (.resyncReqRx ⟨n, l⟩) { dropCopies d with pair := { (dropCopies d).pair with
        serving := some n, leftOff := 0
        left := if n ≠ 0 then stageKeys n d else if l = [] then [0] else l.filter (· ∈ stageKeys 0 d) } })
    ∧ (∀ n t i, hub →
        let taken := p.st = .resync ∧ n = p.stage ∧ (n = 0 ∨ t = s.fc.fn)
        (taken → is_ (.resyncDataRx n t i) (with_ { p with items := p.items ++ [(n, t, i)] }))
        ∧ (¬taken → is_ (.resyncDataRx n t i) d))
    ∧ (∀ c, hub → (act_ → is_ (.withdrawRx c) d) ∧ (¬act_ → is_ (.withdrawRx c) (with_ { p with peerUnfit := true })))
    ∧ (∀ f, hub → (act_ → is_ (.handoverRx f) d) ∧ (¬act_ → is_ (.handoverRx f) (with_ { p with handover := some f })))

/-- RERUN_DONE, RERUN_DEADLINE, RERUN_RX, RERUN_VERDICT: a re-run ends, its tasks complete, with the groups whose digest
it confirms, or with none at its deadline; its verdict clears the hub, makes the other suspect, or finds both consistent
and divergent (R235, R236). RESYNC_STAGE_DONE, RESYNC_DONE: a stage of a resynchronisation ends when the items that it
wanted are loaded and its wait is over, the whole after 60 matched frames (R237 to R239). -/
def Obligations.RerunsAndResyncsEndAsTheirRulesSay : Prop :=
  ∀ s : State, s.dev.alive = true →
    let d := s.dev
    let e := envOf {} s
    let p := d.pair
    let is_ := fun (i : Instr) (x : Device) => exec i s = .next (s.after {} x)
    let with_ := fun (q : PairState) => { d with pair := q }
    let ends := fun (x : Rerun) (mask : BitVec 16) (e : Env) (y : Device) =>
      sendDraw 4 (leBytes 4 x.dfn.toNat ++ leBytes 2 x.groups.toNat ++ leBytes 2 mask.toNat) e
        { y with pair := { p with rerun := some { x with done := true, consistent := mask } } }
    (p.rerun = none → is_ .rerunDone d ∧ is_ .rerunDeadline d ∧ is_ .rerunVerdict d ∧ ∀ f a b, is_ (.rerunRx f a b) d)
    ∧ (∀ x, p.rerun = some x →
        let self := x.consistent &&& x.groups = x.groups
        let peerOk := ∀ q, x.peer = some q → q.1 &&& ~~~q.2 = 0
        let due := x.done = true ∧ 2 ≤ (s.fc.fn + 1 - x.started).toNat
        let told := fun (n : Nat) =>
          let y := raise 0x200E 0 (leBytes 1 n ++ leBytes 3 (x.dfn.toNat % 16777216)) (atTick e) d
          { y with pair := { y.pair with rerun := none } }
        ((x.done = true ∨ s.fc.fn ≠ x.started ∨ rerunBusy x d = true) → is_ .rerunDone d)
        ∧ (x.done = false → s.fc.fn = x.started → rerunBusy x d = false →
            is_ .rerunDone (ends x (consistentGroups x d) e d))
        ∧ (x.done = true → is_ .rerunDeadline d)
        ∧ (x.done = false → is_ .rerunDeadline (ends x 0 (atTick e) { d with disp := { d.disp with reruns := [] } }))
        ∧ (∀ a b, is_ (.rerunRx x.dfn a b) (with_ { p with rerun := some { x with peer := some (a, b) } }))
        ∧ (∀ f a b, f ≠ x.dfn → is_ (.rerunRx f a b) (with_ { p with rerun := some x }))
        ∧ (¬due → is_ .rerunVerdict d)
        ∧ (due → self → peerOk → is_ .rerunVerdict (diverged x.dfn (atTick e) d))
        ∧ (due → self → ¬peerOk → p.st = .check → is_ .rerunVerdict (setPairSt .inSync 0 (atTick e) (told 2)))
        ∧ (due → self → ¬peerOk → p.st ≠ .check → is_ .rerunVerdict (told 2))
        ∧ (due → ¬self → isActive p = true →
            is_ .rerunVerdict { told 1 with pair := { (told 1).pair with foundNext := [causeRerun] } })
        ∧ (due → ¬self → isActive p = false → is_ .rerunVerdict (enterResync causeRerun (atTick e) (told 1))))
    ∧ (let past_ := hubOfPair d = true ∧ p.st = .resync ∧ p.stage < 4 ∧ p.wanted = some [] ∧ p.items = []
        ∧ stageWaits d p.stage ≤ p.stageWait
      let next := with_ { p with stage := p.stage + 1, stageWait := 0, wanted := some (stageKeys (p.stage + 1) d), run := 0 }
      (past_ → p.stage < 3 → is_ .resyncStageDone (sendDraw 5 (leBytes 1 (p.stage + 1)) e next))
      ∧ (past_ → p.stage = 3 → is_ .resyncStageDone next)
      ∧ (¬past_ → is_ .resyncStageDone d))
    ∧ (let whole := hubOfPair d = true ∧ p.st = .resync ∧ p.stage = 4 ∧ 60 ≤ p.run
      (whole → is_ .resyncDone (raise 0x1005 0 (leBytes 4 p.epoch.toNat) e
        (setPairSt .inSync 0 e (with_ { p with failsInRow := 0 }))))
      ∧ (¬whole → is_ .resyncDone d))

/-- WITHDRAWN: a cause makes the active hub WITHDRAWN, a single hub lose FIT, a standby UNFIT on all causes but RERUN
and HOST (R240, R241). PROMOTED: a standby in sync or detached promotes itself when the active is silent or not fit
(R247). DEMOTED: an active hub that a higher one outranks demotes itself (R250). The pair commands at their AF:
PAIR_JOIN, PAIR_REJOIN, PAIR_WITHDRAW, PAIR_HANDOVER (R223, R240, R241, R248). -/
def Obligations.HubsWithdrawPromoteAndDemote : Prop :=
  (∀ s : State, s.dev.alive = true →
    let d := s.dev
    let e := atTick (envOf {} s)
    let p := d.pair
    let is_ := fun (i : Instr) (x : Device) => exec i s = .next (s.after {} x)
    let with_ := fun (q : PairState) => { d with pair := q }
    let clear := { p with found := [] }
    let kept := p.found.filter (fun c => c ≠ causeRerun && c ≠ causeHost)
    let standby := p.st = .inSync ∨ p.st = .check ∨ p.st = .resync ∨ p.st = .detached
    let takes := hubOfPair d = true ∧ (isSync p = true ∨ p.st = .detached)
      ∧ ((3 ≤ p.streamSilence ∧ 3 ≤ p.statusSilence) ∨ (p.peerUnfit = true ∧ isFit p = true))
    (p.found = [] → is_ .withdrawn (with_ clear))
    ∧ (∀ c l, p.found = c :: l → p.st = .single → is_ .withdrawn (with_ { clear with singleFit := false, cause := c }))
    ∧ (∀ c l, p.found = c :: l → p.st = .active → is_ .withdrawn
        (raise 0x3007 0 (leBytes 1 c) e (sendDraw 7 (leBytes 1 c) e (setPairSt .withdrawn c e (with_ clear)))))
    ∧ ((p.st = .withdrawn ∨ p.st = .stopped ∨ p.st = .unfit) → is_ .withdrawn (with_ clear))
    ∧ (standby → kept = [] → is_ .withdrawn (with_ clear))
    ∧ (standby → ∀ c l, kept = c :: l →
        is_ .withdrawn (setPairSt .unfit c e (with_ { clear with items := [], rerun := none })))
    ∧ (takes → ∃ t, is_ .promoted t ∧ t.pair.st = .active ∧ t.pair.epoch = p.peerEpoch + 1 ∧ t.pair.peerUnfit = false
        ∧ t.pair.unacked = [] ∧ (d.evt.store.length < 250 → ∃ v ∈ t.evt.store, v.code = 0x1006 ∧ v.fn = s.fc.fn + 1))
    ∧ (¬takes → is_ .promoted d)
    ∧ (p.outranked = none → is_ .demoted d)
    ∧ (∀ ep, p.outranked = some ep →
        (p.st = .withdrawn → is_ .demoted d)
        ∧ (p.st ≠ .withdrawn → (hubOfPair d = false ∨ isActive p = false) →
            is_ .demoted (with_ { p with outranked := none }))
        ∧ (p.st ≠ .withdrawn → hubOfPair d = true → isActive p = true → ∃ t, is_ .demoted t
            ∧ (p.up = true → t.pair.st = .resync) ∧ (p.up = false → t.pair.st = .detached)
            ∧ t.pair.singleFit = false ∧ t.pair.outranked = none ∧ t.pair.epoch = p.epoch)))
  ∧ ∀ (c : Pend) (due : Option (List Nat)) (e : Env) (d : Device),
    let p := d.pair
    let hot := p.thermalNow = true ∨ d.clk.sysLocked = false
    let is_ := fun (x : Device) => applyCmd c due e d = { dev := x }
    let refused := fun (st : Nat) => applyCmd c due e d = { dev := d, status := some st }
    (c.opcode = 0x0503 → d.pwr.rendering = true → refused 0x010A)
    ∧ (c.opcode = 0x0503 → d.pwr.rendering = false → ∃ t, is_ t ∧ t.pwr.rendering = true ∧ t.pwr.startFn = e.fn
        ∧ t.pair.st = .resync ∧ t.pair.stage = 0)
    ∧ (c.opcode = 0x0504 → hot → refused 0x0117)
    ∧ (c.opcode = 0x0504 → ¬hot → p.st = .single → is_ { d with pair := { p with singleFit := true } })
    ∧ (c.opcode = 0x0504 → ¬hot → p.st = .unfit → is_ (enterResync 0 e d))
    ∧ (c.opcode = 0x0504 → ¬hot → p.st ≠ .single → p.st ≠ .unfit → is_ d)
    ∧ (c.opcode = 0x0505 → isActive p = true → is_ (noteCause causeHost d))
    ∧ (c.opcode = 0x0505 → p.st = .stopped → is_ d)
    ∧ (c.opcode = 0x0505 → isActive p = false → p.st ≠ .stopped →
        is_ (stopRender e (setPairSt .stopped causeHost e d)))
    ∧ (c.opcode = 0x0506 → c.fromMirror = false → is_ (setPairSt .inSync 0 e d))
    ∧ (c.opcode = 0x0506 → c.fromMirror = true → (p.st = .inSync ∨ p.st = .check) → is_ (promote e d))
    ∧ (c.opcode = 0x0506 → c.fromMirror = true → p.st ≠ .inSync → p.st ≠ .check → is_ d)

/-- After reset the registers read the values of their Reset column (chapter 18), nothing waits, and the pair, the clock
and every power channel are in their reset states. A register whose column says 'kept' or 'from OTP', and every value
that the spec does not give, is the model's own choice (log 3) and not part of this statement. -/
def Obligations.ResetLeavesTheRegistersAtTheirColumn : Prop :=
  let d := State.reset.dev
  let e := envOf {} State.reset
  (∀ x ∈ ([(0x000, 0x0A240002), (0x020, 0), (0x024, 0xFF), (0x028, 0x00100000), (0x030, 0), (0x100, 0), (0x104, 0), (0x108, 0)
      , (0x10C, 0), (0x110, 0), (0x114, 0), (0x118, 0), (0x11C, 0), (0x120, 0), (0x124, 0), (0x128, 0), (0x200, 0), (0x204, 2)
      , (0x208, 0), (0x20C, 1), (0x210, 0), (0x300, 0), (0x304, 0), (0x308, 0), (0x30C, 0), (0x310, 0), (0x314, 0), (0x318, 0)
      , (0x31C, 0)] : List (Nat × BitVec 32)), regRead x.1 e d = x.2)
  ∧ (∀ x ∈ ([(0x408, 0), (0x410, 0), (0x414, 0), (0x418, 0), (0x41C, 0), (0x420, 0), (0x424, 0), (0x428, 0), (0x42C, 0)
      , (0x430, 0), (0x434, 0), (0x438, 0), (0x43C, 0), (0x440, 0x44C), (0x444, 0x89), (0x448, 0x2710), (0x44C, 0x3E8)
      , (0x450, 8), (0x454, 0x2710), (0x458, 4), (0x45C, 0x1770), (0x464, 0x258), (0x500, 0x30), (0x504, 0), (0x508, 0)
      , (0x600, 1), (0x610, 0), (0x614, 0), (0x618, 0xFFFFFFFF), (0x61C, 0), (0x620, 0), (0x624, 0xFFFFFFFF), (0x628, 0)
      , (0x62C, 0), (0x630, 0xFFFFFFFF)] : List (Nat × BitVec 32)), regRead x.1 e d = x.2)
  ∧ (∀ x ∈ ([(0xC00, 0), (0xC04, 0), (0xC08, 0), (0xC0C, 0), (0xC40, 0), (0x1000, 0), (0x1004, 0), (0x1008, 0), (0x100C, 0)
      , (0x1010, 0), (0x1014, 0), (0x1018, 0x1FF), (0x101C, 0), (0x1020, 0), (0x1024, 0), (0x1028, 0), (0x2000, 0)
      , (0x2004, 0xFFFFFFFF), (0x2008, 0xFF), (0x200C, 0x1F), (0x2010, 0x15)] : List (Nat × BitVec 32)), regRead x.1 e d = x.2)
  ∧ (∀ n, n < 40 → regRead (0x2100 + 16 * n) e d = 0xF8000000 ∧ regRead (0x2104 + 16 * n) e d = 3
      ∧ regRead (0x2108 + 16 * n) e d = 0 ∧ regRead (0x210C + 16 * n) e d = 0)
  ∧ (∀ n, n < 8 → regRead (0x4000 + 0x100 * n) e d = 9 ∧ regRead (0x4800 + 0x100 * n) e d = 0)
  ∧ (∀ p, p < 4 → regRead (0x1000C + 0x4000 * p) e d = (if p = 3 then 2 else 0) ∧ regRead (0x10000 + 0x4000 * p) e d = 0
      ∧ regRead (0x10010 + 0x4000 * p) e d = (if p = 3 then 0x64 else 0)
      ∧ regRead (0x10014 + 0x4000 * p) e d = (if p = 3 then 0x11 else 0))
  ∧ (∀ off, (0x20000 ≤ off ∧ off < 0x100000) → regRead off e d = 0)
  ∧ State.reset.pending = [] ∧ d.cmd.queue = [] ∧ d.evt.store = [] ∧ d.pair.st = .stopped ∧ d.pwr.rendering = false
  ∧ d.img.img = none ∧ (∀ n, (pchAt d n).st = .off) ∧ (∀ c, (coreAt d c).regs = {})

end Statements
end

