-- ==== Sys2Proof/Laws/Maps.lean ====
section
/-! SUPPORT. Laws of sparse maps: a read after a write, other keys, and the canonical form that every write keeps. -/
namespace Sys2Proof.Machine

variable {α : Type}

@[simp] theorem mget_nil (v0 : α) (k : Nat) : mget v0 [] k = v0 := rfl

theorem mget_mdel_self (v0 : α) (m : SMap α) (k : Nat) : mget v0 (mdel m k) k = v0 := by
  induction m with
  | nil => rfl
  | cons p m ih =>
    by_cases h : p.1 = k
    · simpa [mdel, h] using ih
    · simpa [mdel, h, mget] using ih

theorem mget_mdel_ne (v0 : α) (m : SMap α) {j k : Nat} (h : j ≠ k) : mget v0 (mdel m k) j = mget v0 m j := by
  induction m with
  | nil => rfl
  | cons p m ih =>
    by_cases hk : p.1 = k
    · have hj : p.1 ≠ j := fun e => h (e.symm.trans hk)
      simpa [mdel, hk, mget, hj, Ne.symm h] using ih
    · by_cases hj : p.1 = j
      · simp [mdel, mget, hj, h]
      · simpa [mdel, hk, mget, hj] using ih

theorem mget_minsert_self (v0 v : α) (m : SMap α) (k : Nat) (h : ∀ p ∈ m, p.1 ≠ k) :
    mget v0 (minsert k v m) k = v := by
  induction m with
  | nil => simp [minsert, mget]
  | cons p m ih =>
    have h1 : p.1 ≠ k := h p (by simp)
    have h2 := ih (fun q hq => h q (by simp [hq]))
    simp only [minsert]
    split <;> simp [mget, h1, h2]

theorem mget_minsert_ne (v0 v : α) (m : SMap α) {j k : Nat} (h : j ≠ k) :
    mget v0 (minsert k v m) j = mget v0 m j := by
  induction m with
  | nil => simp [minsert, mget, Ne.symm h]
  | cons p m ih => simp only [minsert]; split <;> simp [mget, ih, Ne.symm h]

variable [DecidableEq α]

/-- A read after a write to the same key. -/
@[simp] theorem mget_mset_self (v0 : α) (m : SMap α) (k : Nat) (v : α) : mget v0 (mset v0 m k v) k = v := by
  unfold mset
  split
  · next h => rw [mget_mdel_self, h]
  · exact mget_minsert_self v0 v _ k (fun p hp => by simp [mdel] at hp; exact hp.2)

/-- A write leaves every other key alone. -/
theorem mget_mset_ne (v0 : α) (m : SMap α) {j k : Nat} (v : α) (h : j ≠ k) :
    mget v0 (mset v0 m k v) j = mget v0 m j := by
  unfold mset
  split
  · exact mget_mdel_ne v0 m h
  · rw [mget_minsert_ne v0 v _ h, mget_mdel_ne v0 m h]

/-! ## The canonical form -/

/-- Keys strictly rising, no entry at the default: the canonical form as a proposition. -/
def Canon (v0 : α) (m : SMap α) : Prop := m.Pairwise (fun p q => p.1 < q.1) ∧ ∀ p ∈ m, p.2 ≠ v0

omit [DecidableEq α] in
theorem zip_tail_all_iff (m : SMap α) :
    (m.zip m.tail).all (fun p => decide (p.1.1 < p.2.1)) = true ↔ m.Pairwise (fun p q => p.1 < q.1) := by
  induction m with
  | nil => simp
  | cons p m ih =>
    cases m with
    | nil => simp
    | cons q m =>
      rw [List.pairwise_cons, ← ih]
      simp only [List.tail_cons, List.zip_cons_cons, List.all_cons, Bool.and_eq_true, decide_eq_true_eq] at *
      constructor
      · rintro ⟨h1, h2⟩
        refine ⟨?_, h2⟩
        intro r hr
        rcases List.mem_cons.mp hr with rfl | hr
        · exact h1
        · exact Nat.lt_trans h1 ((List.pairwise_cons.mp (ih.mp h2)).1 r hr)
      · rintro ⟨h1, h2⟩
        exact ⟨h1 q (by simp), h2⟩

theorem mwf_iff (v0 : α) (m : SMap α) : mwf v0 m = true ↔ Canon v0 m := by
  unfold mwf Canon
  rw [Bool.and_eq_true, zip_tail_all_iff]
  simp

omit [DecidableEq α] in
theorem minsert_mem (k : Nat) (v : α) (m : SMap α) (p : Nat × α) (h : p ∈ minsert k v m) : p = (k, v) ∨ p ∈ m := by
  induction m with
  | nil => simpa [minsert] using h
  | cons q m ih =>
    simp only [minsert] at h
    split at h
    · simpa using h
    · rcases List.mem_cons.mp h with h | h
      · exact .inr (by simp [h])
      · rcases ih h with h | h
        · exact .inl h
        · exact .inr (by simp [h])

omit [DecidableEq α] in
theorem minsert_canon (v0 v : α) (m : SMap α) (k : Nat) (hv : v ≠ v0) (h : Canon v0 m) (hk : ∀ p ∈ m, p.1 ≠ k) :
    Canon v0 (minsert k v m) := by
  refine ⟨?_, ?_⟩
  · induction m with
    | nil => simp [minsert]
    | cons q m ih =>
      have hq := List.pairwise_cons.mp h.1
      simp only [minsert]
      split
      · next hlt =>
        refine List.pairwise_cons.mpr ⟨?_, h.1⟩
        intro r hr
        rcases List.mem_cons.mp hr with rfl | hr
        · exact hlt
        · exact Nat.lt_trans hlt (hq.1 r hr)
      · next hlt =>
        refine List.pairwise_cons.mpr ⟨?_, ih ⟨hq.2, fun p hp => h.2 p (by simp [hp])⟩ (fun p hp => hk p (by simp [hp]))⟩
        intro r hr
        rcases minsert_mem k v m r hr with rfl | hr
        · exact Nat.lt_of_le_of_ne (Nat.le_of_not_lt hlt) (hk q (by simp))
        · exact hq.1 r hr
  · intro p hp
    rcases minsert_mem k v m p hp with rfl | hp
    · exact hv
    · exact h.2 p hp

omit [DecidableEq α] in
theorem mdel_canon (v0 : α) (m : SMap α) (k : Nat) (h : Canon v0 m) : Canon v0 (mdel m k) :=
  ⟨h.1.filter _, fun p hp => h.2 p ((List.mem_filter.mp hp).1)⟩

/-- A write keeps the canonical form. -/
theorem mset_canon (v0 : α) (m : SMap α) (k : Nat) (v : α) (h : Canon v0 m) : Canon v0 (mset v0 m k v) := by
  unfold mset
  split
  · exact mdel_canon v0 m k h
  · next hv => exact minsert_canon v0 v _ k hv (mdel_canon v0 m k h) (fun p hp => by simp [mdel] at hp; exact hp.2)

theorem mset_wf (v0 : α) (m : SMap α) (k : Nat) (v : α) (h : mwf v0 m = true) : mwf v0 (mset v0 m k v) = true :=
  (mwf_iff _ _).mpr (mset_canon v0 m k v ((mwf_iff _ _).mp h))

theorem msets_wf (v0 : α) (l : List (Nat × α)) (m : SMap α) (h : mwf v0 m = true) : mwf v0 (msets v0 m l) = true := by
  unfold msets
  induction l generalizing m with
  | nil => exact h
  | cons p l ih => exact ih _ (mset_wf v0 m p.1 p.2 h)

/-! ## Host memory -/

/-- A posted write keeps the canonical form of host memory. -/
theorem memWrite_wf (m : List Host.Cell) (a : Nat) (l : List Byte) (h : Memory.wf m = true) :
    Memory.wf (memWrite m a l) = true := msets_wf _ _ _ h

theorem memWrites_wf (w : List (Nat × List Byte)) (m : List Host.Cell) (h : Memory.wf m = true) :
    Memory.wf (memWrites m w) = true := by
  unfold memWrites
  induction w generalizing m with
  | nil => exact h
  | cons p w ih => exact ih _ (memWrite_wf m p.1 p.2 h)

/-- A byte outside the written range reads as before. -/
theorem memByte_memWrite_ne (m : List Host.Cell) (a : Nat) (l : List Byte) (b : Nat) (h : b < a ∨ a + l.length ≤ b) :
    memByte (memWrite m a l) b = memByte m b := by
  unfold memByte memWrite msets
  have key : ∀ (k : Nat) (l : List Byte) (m : List Host.Cell), (b < a + k ∨ a + k + l.length ≤ b) →
      mget 0 (((l.zipIdx k).map (fun p => (a + p.2, p.1))).foldl (fun c p => mset (0 : Byte) c p.1 p.2) m) b
        = mget 0 m b := by
    intro k l
    induction l generalizing k with
    | nil => intros; rfl
    | cons x l ih =>
      intro m hb
      simp only [List.zipIdx_cons, List.map_cons, List.foldl_cons]
      rw [ih (k + 1) _ (by simp at hb; omega)]
      exact mget_mset_ne 0 m x (by simp at hb; omega)
  exact key 0 l m (by simpa using h)

end Sys2Proof.Machine
end

