-- ==== Sys2Proof/Laws/State.lean ====
section
/-! SUPPORT. One lemma per field per update of the state, and what the shared operations on elements, events and posted
writes do: every later proof cites these instead of unfolding a record update. -/
namespace Sys2Proof.Machine

variable (i j o n : Nat) (d : Device)

/-! ## `setObj` -/

@[simp] theorem setObj_img (x : ObjState) : (setObj i x d).img = d.img := rfl
@[simp] theorem setObj_cmd (x : ObjState) : (setObj i x d).cmd = d.cmd := rfl
@[simp] theorem setObj_evt (x : ObjState) : (setObj i x d).evt = d.evt := rfl
@[simp] theorem setObj_ring (x : ObjState) : (setObj i x d).ring = d.ring := rfl
@[simp] theorem setObj_xp (x : ObjState) : (setObj i x d).xp = d.xp := rfl
@[simp] theorem setObj_inp (x : ObjState) : (setObj i x d).inp = d.inp := rfl
@[simp] theorem setObj_chn (x : ObjState) : (setObj i x d).chn = d.chn := rfl
@[simp] theorem setObj_psc (x : ObjState) : (setObj i x d).psc = d.psc := rfl
@[simp] theorem setObj_jrn (x : ObjState) : (setObj i x d).jrn = d.jrn := rfl
@[simp] theorem setObj_pair (x : ObjState) : (setObj i x d).pair = d.pair := rfl
@[simp] theorem setObj_disp (x : ObjState) : (setObj i x d).disp = d.disp := rfl
@[simp] theorem setObj_cores (x : ObjState) : (setObj i x d).cores = d.cores := rfl
@[simp] theorem setObj_imem (x : ObjState) : (setObj i x d).imem = d.imem := rfl
@[simp] theorem setObj_mem (x : ObjState) : (setObj i x d).mem = d.mem := rfl
@[simp] theorem setObj_xbar (x : ObjState) : (setObj i x d).xbar = d.xbar := rfl
@[simp] theorem setObj_dram (x : ObjState) : (setObj i x d).dram = d.dram := rfl
@[simp] theorem setObj_eth (x : ObjState) : (setObj i x d).eth = d.eth := rfl
@[simp] theorem setObj_clk (x : ObjState) : (setObj i x d).clk = d.clk := rfl
@[simp] theorem setObj_aes (x : ObjState) : (setObj i x d).aes = d.aes := rfl
@[simp] theorem setObj_pwr (x : ObjState) : (setObj i x d).pwr = d.pwr := rfl
@[simp] theorem setObj_regs (x : ObjState) : (setObj i x d).regs = d.regs := rfl
@[simp] theorem setObj_outbox (x : ObjState) : (setObj i x d).outbox = d.outbox := rfl
@[simp] theorem setObj_free (x : ObjState) : (setObj i x d).free = d.free := rfl
@[simp] theorem objAt_setObj (x : ObjState) : objAt (setObj i x d) i = x := mget_mset_self _ _ _ _
theorem objAt_setObj_ne (x : ObjState) (h : j ≠ i) : objAt (setObj i x d) j = objAt d j := mget_mset_ne _ _ _ h

/-! ## `setOut` -/

@[simp] theorem setOut_img (x : OutState) : (setOut i x d).img = d.img := rfl
@[simp] theorem setOut_cmd (x : OutState) : (setOut i x d).cmd = d.cmd := rfl
@[simp] theorem setOut_evt (x : OutState) : (setOut i x d).evt = d.evt := rfl
@[simp] theorem setOut_ring (x : OutState) : (setOut i x d).ring = d.ring := rfl
@[simp] theorem setOut_geo (x : OutState) : (setOut i x d).geo = d.geo := rfl
@[simp] theorem setOut_xp (x : OutState) : (setOut i x d).xp = d.xp := rfl
@[simp] theorem setOut_inp (x : OutState) : (setOut i x d).inp = d.inp := rfl
@[simp] theorem setOut_psc (x : OutState) : (setOut i x d).psc = d.psc := rfl
@[simp] theorem setOut_jrn (x : OutState) : (setOut i x d).jrn = d.jrn := rfl
@[simp] theorem setOut_pair (x : OutState) : (setOut i x d).pair = d.pair := rfl
@[simp] theorem setOut_disp (x : OutState) : (setOut i x d).disp = d.disp := rfl
@[simp] theorem setOut_cores (x : OutState) : (setOut i x d).cores = d.cores := rfl
@[simp] theorem setOut_imem (x : OutState) : (setOut i x d).imem = d.imem := rfl
@[simp] theorem setOut_mem (x : OutState) : (setOut i x d).mem = d.mem := rfl
@[simp] theorem setOut_xbar (x : OutState) : (setOut i x d).xbar = d.xbar := rfl
@[simp] theorem setOut_dram (x : OutState) : (setOut i x d).dram = d.dram := rfl
@[simp] theorem setOut_eth (x : OutState) : (setOut i x d).eth = d.eth := rfl
@[simp] theorem setOut_clk (x : OutState) : (setOut i x d).clk = d.clk := rfl
@[simp] theorem setOut_aes (x : OutState) : (setOut i x d).aes = d.aes := rfl
@[simp] theorem setOut_pwr (x : OutState) : (setOut i x d).pwr = d.pwr := rfl
@[simp] theorem setOut_regs (x : OutState) : (setOut i x d).regs = d.regs := rfl
@[simp] theorem setOut_outbox (x : OutState) : (setOut i x d).outbox = d.outbox := rfl
@[simp] theorem setOut_free (x : OutState) : (setOut i x d).free = d.free := rfl
@[simp] theorem outAt_setOut (x : OutState) : outAt (setOut i x d) i = x := mget_mset_self _ _ _ _
theorem outAt_setOut_ne (x : OutState) (h : j ≠ i) : outAt (setOut i x d) j = outAt d j := mget_mset_ne _ _ _ h

/-! ## `setDec` -/

@[simp] theorem setDec_img (x : Dec) : (setDec i x d).img = d.img := rfl
@[simp] theorem setDec_cmd (x : Dec) : (setDec i x d).cmd = d.cmd := rfl
@[simp] theorem setDec_evt (x : Dec) : (setDec i x d).evt = d.evt := rfl
@[simp] theorem setDec_ring (x : Dec) : (setDec i x d).ring = d.ring := rfl
@[simp] theorem setDec_geo (x : Dec) : (setDec i x d).geo = d.geo := rfl
@[simp] theorem setDec_xp (x : Dec) : (setDec i x d).xp = d.xp := rfl
@[simp] theorem setDec_inp (x : Dec) : (setDec i x d).inp = d.inp := rfl
@[simp] theorem setDec_chn (x : Dec) : (setDec i x d).chn = d.chn := rfl
@[simp] theorem setDec_jrn (x : Dec) : (setDec i x d).jrn = d.jrn := rfl
@[simp] theorem setDec_pair (x : Dec) : (setDec i x d).pair = d.pair := rfl
@[simp] theorem setDec_disp (x : Dec) : (setDec i x d).disp = d.disp := rfl
@[simp] theorem setDec_cores (x : Dec) : (setDec i x d).cores = d.cores := rfl
@[simp] theorem setDec_imem (x : Dec) : (setDec i x d).imem = d.imem := rfl
@[simp] theorem setDec_mem (x : Dec) : (setDec i x d).mem = d.mem := rfl
@[simp] theorem setDec_xbar (x : Dec) : (setDec i x d).xbar = d.xbar := rfl
@[simp] theorem setDec_dram (x : Dec) : (setDec i x d).dram = d.dram := rfl
@[simp] theorem setDec_eth (x : Dec) : (setDec i x d).eth = d.eth := rfl
@[simp] theorem setDec_clk (x : Dec) : (setDec i x d).clk = d.clk := rfl
@[simp] theorem setDec_aes (x : Dec) : (setDec i x d).aes = d.aes := rfl
@[simp] theorem setDec_pwr (x : Dec) : (setDec i x d).pwr = d.pwr := rfl
@[simp] theorem setDec_regs (x : Dec) : (setDec i x d).regs = d.regs := rfl
@[simp] theorem setDec_outbox (x : Dec) : (setDec i x d).outbox = d.outbox := rfl
@[simp] theorem setDec_free (x : Dec) : (setDec i x d).free = d.free := rfl
@[simp] theorem decAt_setDec (x : Dec) : decAt (setDec i x d) i = x := mget_mset_self _ _ _ _
theorem decAt_setDec_ne (x : Dec) (h : j ≠ i) : decAt (setDec i x d) j = decAt d j := mget_mset_ne _ _ _ h

/-! ## `setPch` -/

@[simp] theorem setPch_img (x : Pch) : (setPch i x d).img = d.img := rfl
@[simp] theorem setPch_cmd (x : Pch) : (setPch i x d).cmd = d.cmd := rfl
@[simp] theorem setPch_evt (x : Pch) : (setPch i x d).evt = d.evt := rfl
@[simp] theorem setPch_ring (x : Pch) : (setPch i x d).ring = d.ring := rfl
@[simp] theorem setPch_geo (x : Pch) : (setPch i x d).geo = d.geo := rfl
@[simp] theorem setPch_xp (x : Pch) : (setPch i x d).xp = d.xp := rfl
@[simp] theorem setPch_inp (x : Pch) : (setPch i x d).inp = d.inp := rfl
@[simp] theorem setPch_chn (x : Pch) : (setPch i x d).chn = d.chn := rfl
@[simp] theorem setPch_jrn (x : Pch) : (setPch i x d).jrn = d.jrn := rfl
@[simp] theorem setPch_pair (x : Pch) : (setPch i x d).pair = d.pair := rfl
@[simp] theorem setPch_disp (x : Pch) : (setPch i x d).disp = d.disp := rfl
@[simp] theorem setPch_cores (x : Pch) : (setPch i x d).cores = d.cores := rfl
@[simp] theorem setPch_imem (x : Pch) : (setPch i x d).imem = d.imem := rfl
@[simp] theorem setPch_mem (x : Pch) : (setPch i x d).mem = d.mem := rfl
@[simp] theorem setPch_xbar (x : Pch) : (setPch i x d).xbar = d.xbar := rfl
@[simp] theorem setPch_dram (x : Pch) : (setPch i x d).dram = d.dram := rfl
@[simp] theorem setPch_eth (x : Pch) : (setPch i x d).eth = d.eth := rfl
@[simp] theorem setPch_clk (x : Pch) : (setPch i x d).clk = d.clk := rfl
@[simp] theorem setPch_aes (x : Pch) : (setPch i x d).aes = d.aes := rfl
@[simp] theorem setPch_pwr (x : Pch) : (setPch i x d).pwr = d.pwr := rfl
@[simp] theorem setPch_regs (x : Pch) : (setPch i x d).regs = d.regs := rfl
@[simp] theorem setPch_outbox (x : Pch) : (setPch i x d).outbox = d.outbox := rfl
@[simp] theorem setPch_free (x : Pch) : (setPch i x d).free = d.free := rfl
@[simp] theorem pchAt_setPch (x : Pch) : pchAt (setPch i x d) i = x := mget_mset_self _ _ _ _
theorem pchAt_setPch_ne (x : Pch) (h : j ≠ i) : pchAt (setPch i x d) j = pchAt d j := mget_mset_ne _ _ _ h

/-! ## `setRail` -/

@[simp] theorem setRail_img (x : Rail) : (setRail i x d).img = d.img := rfl
@[simp] theorem setRail_cmd (x : Rail) : (setRail i x d).cmd = d.cmd := rfl
@[simp] theorem setRail_evt (x : Rail) : (setRail i x d).evt = d.evt := rfl
@[simp] theorem setRail_ring (x : Rail) : (setRail i x d).ring = d.ring := rfl
@[simp] theorem setRail_geo (x : Rail) : (setRail i x d).geo = d.geo := rfl
@[simp] theorem setRail_xp (x : Rail) : (setRail i x d).xp = d.xp := rfl
@[simp] theorem setRail_inp (x : Rail) : (setRail i x d).inp = d.inp := rfl
@[simp] theorem setRail_chn (x : Rail) : (setRail i x d).chn = d.chn := rfl
@[simp] theorem setRail_jrn (x : Rail) : (setRail i x d).jrn = d.jrn := rfl
@[simp] theorem setRail_pair (x : Rail) : (setRail i x d).pair = d.pair := rfl
@[simp] theorem setRail_disp (x : Rail) : (setRail i x d).disp = d.disp := rfl
@[simp] theorem setRail_cores (x : Rail) : (setRail i x d).cores = d.cores := rfl
@[simp] theorem setRail_imem (x : Rail) : (setRail i x d).imem = d.imem := rfl
@[simp] theorem setRail_mem (x : Rail) : (setRail i x d).mem = d.mem := rfl
@[simp] theorem setRail_xbar (x : Rail) : (setRail i x d).xbar = d.xbar := rfl
@[simp] theorem setRail_dram (x : Rail) : (setRail i x d).dram = d.dram := rfl
@[simp] theorem setRail_eth (x : Rail) : (setRail i x d).eth = d.eth := rfl
@[simp] theorem setRail_clk (x : Rail) : (setRail i x d).clk = d.clk := rfl
@[simp] theorem setRail_aes (x : Rail) : (setRail i x d).aes = d.aes := rfl
@[simp] theorem setRail_pwr (x : Rail) : (setRail i x d).pwr = d.pwr := rfl
@[simp] theorem setRail_regs (x : Rail) : (setRail i x d).regs = d.regs := rfl
@[simp] theorem setRail_outbox (x : Rail) : (setRail i x d).outbox = d.outbox := rfl
@[simp] theorem setRail_free (x : Rail) : (setRail i x d).free = d.free := rfl
@[simp] theorem railAt_setRail (x : Rail) : railAt (setRail i x d) i = x := mget_mset_self _ _ _ _
theorem railAt_setRail_ne (x : Rail) (h : j ≠ i) : railAt (setRail i x d) j = railAt d j := mget_mset_ne _ _ _ h

/-! ## `setRing` -/

@[simp] theorem setRing_img (x : Ring) : (setRing i x d).img = d.img := rfl
@[simp] theorem setRing_cmd (x : Ring) : (setRing i x d).cmd = d.cmd := rfl
@[simp] theorem setRing_evt (x : Ring) : (setRing i x d).evt = d.evt := rfl
@[simp] theorem setRing_geo (x : Ring) : (setRing i x d).geo = d.geo := rfl
@[simp] theorem setRing_xp (x : Ring) : (setRing i x d).xp = d.xp := rfl
@[simp] theorem setRing_inp (x : Ring) : (setRing i x d).inp = d.inp := rfl
@[simp] theorem setRing_chn (x : Ring) : (setRing i x d).chn = d.chn := rfl
@[simp] theorem setRing_psc (x : Ring) : (setRing i x d).psc = d.psc := rfl
@[simp] theorem setRing_jrn (x : Ring) : (setRing i x d).jrn = d.jrn := rfl
@[simp] theorem setRing_pair (x : Ring) : (setRing i x d).pair = d.pair := rfl
@[simp] theorem setRing_disp (x : Ring) : (setRing i x d).disp = d.disp := rfl
@[simp] theorem setRing_cores (x : Ring) : (setRing i x d).cores = d.cores := rfl
@[simp] theorem setRing_imem (x : Ring) : (setRing i x d).imem = d.imem := rfl
@[simp] theorem setRing_mem (x : Ring) : (setRing i x d).mem = d.mem := rfl
@[simp] theorem setRing_xbar (x : Ring) : (setRing i x d).xbar = d.xbar := rfl
@[simp] theorem setRing_dram (x : Ring) : (setRing i x d).dram = d.dram := rfl
@[simp] theorem setRing_eth (x : Ring) : (setRing i x d).eth = d.eth := rfl
@[simp] theorem setRing_clk (x : Ring) : (setRing i x d).clk = d.clk := rfl
@[simp] theorem setRing_aes (x : Ring) : (setRing i x d).aes = d.aes := rfl
@[simp] theorem setRing_pwr (x : Ring) : (setRing i x d).pwr = d.pwr := rfl
@[simp] theorem setRing_regs (x : Ring) : (setRing i x d).regs = d.regs := rfl
@[simp] theorem setRing_outbox (x : Ring) : (setRing i x d).outbox = d.outbox := rfl
@[simp] theorem setRing_free (x : Ring) : (setRing i x d).free = d.free := rfl
@[simp] theorem ringAt_setRing (x : Ring) : ringAt (setRing i x d) i = x := mget_mset_self _ _ _ _
theorem ringAt_setRing_ne (x : Ring) (h : j ≠ i) : ringAt (setRing i x d) j = ringAt d j := mget_mset_ne _ _ _ h

/-! ## `setChan` -/

@[simp] theorem setChan_img (x : RxChan) : (setChan i x d).img = d.img := rfl
@[simp] theorem setChan_cmd (x : RxChan) : (setChan i x d).cmd = d.cmd := rfl
@[simp] theorem setChan_evt (x : RxChan) : (setChan i x d).evt = d.evt := rfl
@[simp] theorem setChan_ring (x : RxChan) : (setChan i x d).ring = d.ring := rfl
@[simp] theorem setChan_geo (x : RxChan) : (setChan i x d).geo = d.geo := rfl
@[simp] theorem setChan_xp (x : RxChan) : (setChan i x d).xp = d.xp := rfl
@[simp] theorem setChan_chn (x : RxChan) : (setChan i x d).chn = d.chn := rfl
@[simp] theorem setChan_psc (x : RxChan) : (setChan i x d).psc = d.psc := rfl
@[simp] theorem setChan_jrn (x : RxChan) : (setChan i x d).jrn = d.jrn := rfl
@[simp] theorem setChan_pair (x : RxChan) : (setChan i x d).pair = d.pair := rfl
@[simp] theorem setChan_disp (x : RxChan) : (setChan i x d).disp = d.disp := rfl
@[simp] theorem setChan_cores (x : RxChan) : (setChan i x d).cores = d.cores := rfl
@[simp] theorem setChan_imem (x : RxChan) : (setChan i x d).imem = d.imem := rfl
@[simp] theorem setChan_mem (x : RxChan) : (setChan i x d).mem = d.mem := rfl
@[simp] theorem setChan_xbar (x : RxChan) : (setChan i x d).xbar = d.xbar := rfl
@[simp] theorem setChan_dram (x : RxChan) : (setChan i x d).dram = d.dram := rfl
@[simp] theorem setChan_eth (x : RxChan) : (setChan i x d).eth = d.eth := rfl
@[simp] theorem setChan_clk (x : RxChan) : (setChan i x d).clk = d.clk := rfl
@[simp] theorem setChan_aes (x : RxChan) : (setChan i x d).aes = d.aes := rfl
@[simp] theorem setChan_pwr (x : RxChan) : (setChan i x d).pwr = d.pwr := rfl
@[simp] theorem setChan_regs (x : RxChan) : (setChan i x d).regs = d.regs := rfl
@[simp] theorem setChan_outbox (x : RxChan) : (setChan i x d).outbox = d.outbox := rfl
@[simp] theorem setChan_free (x : RxChan) : (setChan i x d).free = d.free := rfl
@[simp] theorem chanAt_setChan (x : RxChan) : chanAt (setChan i x d) i = x := mget_mset_self _ _ _ _
theorem chanAt_setChan_ne (x : RxChan) (h : j ≠ i) : chanAt (setChan i x d) j = chanAt d j := mget_mset_ne _ _ _ h

/-! ## `setPort` -/

@[simp] theorem setPort_img (x : Port) : (setPort i x d).img = d.img := rfl
@[simp] theorem setPort_cmd (x : Port) : (setPort i x d).cmd = d.cmd := rfl
@[simp] theorem setPort_evt (x : Port) : (setPort i x d).evt = d.evt := rfl
@[simp] theorem setPort_ring (x : Port) : (setPort i x d).ring = d.ring := rfl
@[simp] theorem setPort_geo (x : Port) : (setPort i x d).geo = d.geo := rfl
@[simp] theorem setPort_xp (x : Port) : (setPort i x d).xp = d.xp := rfl
@[simp] theorem setPort_inp (x : Port) : (setPort i x d).inp = d.inp := rfl
@[simp] theorem setPort_chn (x : Port) : (setPort i x d).chn = d.chn := rfl
@[simp] theorem setPort_psc (x : Port) : (setPort i x d).psc = d.psc := rfl
@[simp] theorem setPort_jrn (x : Port) : (setPort i x d).jrn = d.jrn := rfl
@[simp] theorem setPort_pair (x : Port) : (setPort i x d).pair = d.pair := rfl
@[simp] theorem setPort_disp (x : Port) : (setPort i x d).disp = d.disp := rfl
@[simp] theorem setPort_cores (x : Port) : (setPort i x d).cores = d.cores := rfl
@[simp] theorem setPort_imem (x : Port) : (setPort i x d).imem = d.imem := rfl
@[simp] theorem setPort_mem (x : Port) : (setPort i x d).mem = d.mem := rfl
@[simp] theorem setPort_xbar (x : Port) : (setPort i x d).xbar = d.xbar := rfl
@[simp] theorem setPort_dram (x : Port) : (setPort i x d).dram = d.dram := rfl
@[simp] theorem setPort_clk (x : Port) : (setPort i x d).clk = d.clk := rfl
@[simp] theorem setPort_aes (x : Port) : (setPort i x d).aes = d.aes := rfl
@[simp] theorem setPort_pwr (x : Port) : (setPort i x d).pwr = d.pwr := rfl
@[simp] theorem setPort_regs (x : Port) : (setPort i x d).regs = d.regs := rfl
@[simp] theorem setPort_outbox (x : Port) : (setPort i x d).outbox = d.outbox := rfl
@[simp] theorem setPort_free (x : Port) : (setPort i x d).free = d.free := rfl
@[simp] theorem portAt_setPort (x : Port) : portAt (setPort i x d) i = x := mget_mset_self _ _ _ _
theorem portAt_setPort_ne (x : Port) (h : j ≠ i) : portAt (setPort i x d) j = portAt d j := mget_mset_ne _ _ _ h

/-! ## `setAin` -/

@[simp] theorem setAin_img (x : AinPort) : (setAin i x d).img = d.img := rfl
@[simp] theorem setAin_cmd (x : AinPort) : (setAin i x d).cmd = d.cmd := rfl
@[simp] theorem setAin_evt (x : AinPort) : (setAin i x d).evt = d.evt := rfl
@[simp] theorem setAin_ring (x : AinPort) : (setAin i x d).ring = d.ring := rfl
@[simp] theorem setAin_geo (x : AinPort) : (setAin i x d).geo = d.geo := rfl
@[simp] theorem setAin_xp (x : AinPort) : (setAin i x d).xp = d.xp := rfl
@[simp] theorem setAin_inp (x : AinPort) : (setAin i x d).inp = d.inp := rfl
@[simp] theorem setAin_chn (x : AinPort) : (setAin i x d).chn = d.chn := rfl
@[simp] theorem setAin_psc (x : AinPort) : (setAin i x d).psc = d.psc := rfl
@[simp] theorem setAin_jrn (x : AinPort) : (setAin i x d).jrn = d.jrn := rfl
@[simp] theorem setAin_pair (x : AinPort) : (setAin i x d).pair = d.pair := rfl
@[simp] theorem setAin_disp (x : AinPort) : (setAin i x d).disp = d.disp := rfl
@[simp] theorem setAin_cores (x : AinPort) : (setAin i x d).cores = d.cores := rfl
@[simp] theorem setAin_imem (x : AinPort) : (setAin i x d).imem = d.imem := rfl
@[simp] theorem setAin_mem (x : AinPort) : (setAin i x d).mem = d.mem := rfl
@[simp] theorem setAin_xbar (x : AinPort) : (setAin i x d).xbar = d.xbar := rfl
@[simp] theorem setAin_dram (x : AinPort) : (setAin i x d).dram = d.dram := rfl
@[simp] theorem setAin_eth (x : AinPort) : (setAin i x d).eth = d.eth := rfl
@[simp] theorem setAin_clk (x : AinPort) : (setAin i x d).clk = d.clk := rfl
@[simp] theorem setAin_pwr (x : AinPort) : (setAin i x d).pwr = d.pwr := rfl
@[simp] theorem setAin_regs (x : AinPort) : (setAin i x d).regs = d.regs := rfl
@[simp] theorem setAin_outbox (x : AinPort) : (setAin i x d).outbox = d.outbox := rfl
@[simp] theorem setAin_free (x : AinPort) : (setAin i x d).free = d.free := rfl
@[simp] theorem ainAt_setAin (x : AinPort) : ainAt (setAin i x d) i = x := mget_mset_self _ _ _ _
theorem ainAt_setAin_ne (x : AinPort) (h : j ≠ i) : ainAt (setAin i x d) j = ainAt d j := mget_mset_ne _ _ _ h

/-! ## `setAout` -/

@[simp] theorem setAout_img (x : AoutPort) : (setAout i x d).img = d.img := rfl
@[simp] theorem setAout_cmd (x : AoutPort) : (setAout i x d).cmd = d.cmd := rfl
@[simp] theorem setAout_evt (x : AoutPort) : (setAout i x d).evt = d.evt := rfl
@[simp] theorem setAout_ring (x : AoutPort) : (setAout i x d).ring = d.ring := rfl
@[simp] theorem setAout_geo (x : AoutPort) : (setAout i x d).geo = d.geo := rfl
@[simp] theorem setAout_xp (x : AoutPort) : (setAout i x d).xp = d.xp := rfl
@[simp] theorem setAout_inp (x : AoutPort) : (setAout i x d).inp = d.inp := rfl
@[simp] theorem setAout_chn (x : AoutPort) : (setAout i x d).chn = d.chn := rfl
@[simp] theorem setAout_psc (x : AoutPort) : (setAout i x d).psc = d.psc := rfl
@[simp] theorem setAout_jrn (x : AoutPort) : (setAout i x d).jrn = d.jrn := rfl
@[simp] theorem setAout_pair (x : AoutPort) : (setAout i x d).pair = d.pair := rfl
@[simp] theorem setAout_disp (x : AoutPort) : (setAout i x d).disp = d.disp := rfl
@[simp] theorem setAout_cores (x : AoutPort) : (setAout i x d).cores = d.cores := rfl
@[simp] theorem setAout_imem (x : AoutPort) : (setAout i x d).imem = d.imem := rfl
@[simp] theorem setAout_mem (x : AoutPort) : (setAout i x d).mem = d.mem := rfl
@[simp] theorem setAout_xbar (x : AoutPort) : (setAout i x d).xbar = d.xbar := rfl
@[simp] theorem setAout_dram (x : AoutPort) : (setAout i x d).dram = d.dram := rfl
@[simp] theorem setAout_eth (x : AoutPort) : (setAout i x d).eth = d.eth := rfl
@[simp] theorem setAout_clk (x : AoutPort) : (setAout i x d).clk = d.clk := rfl
@[simp] theorem setAout_pwr (x : AoutPort) : (setAout i x d).pwr = d.pwr := rfl
@[simp] theorem setAout_regs (x : AoutPort) : (setAout i x d).regs = d.regs := rfl
@[simp] theorem setAout_outbox (x : AoutPort) : (setAout i x d).outbox = d.outbox := rfl
@[simp] theorem setAout_free (x : AoutPort) : (setAout i x d).free = d.free := rfl
@[simp] theorem aoutAt_setAout (x : AoutPort) : aoutAt (setAout i x d) i = x := mget_mset_self _ _ _ _
theorem aoutAt_setAout_ne (x : AoutPort) (h : j ≠ i) : aoutAt (setAout i x d) j = aoutAt d j := mget_mset_ne _ _ _ h

/-! ## `setCore` -/

@[simp] theorem setCore_img (x : CoreState) : (setCore i x d).img = d.img := rfl
@[simp] theorem setCore_cmd (x : CoreState) : (setCore i x d).cmd = d.cmd := rfl
@[simp] theorem setCore_evt (x : CoreState) : (setCore i x d).evt = d.evt := rfl
@[simp] theorem setCore_ring (x : CoreState) : (setCore i x d).ring = d.ring := rfl
@[simp] theorem setCore_geo (x : CoreState) : (setCore i x d).geo = d.geo := rfl
@[simp] theorem setCore_xp (x : CoreState) : (setCore i x d).xp = d.xp := rfl
@[simp] theorem setCore_inp (x : CoreState) : (setCore i x d).inp = d.inp := rfl
@[simp] theorem setCore_chn (x : CoreState) : (setCore i x d).chn = d.chn := rfl
@[simp] theorem setCore_psc (x : CoreState) : (setCore i x d).psc = d.psc := rfl
@[simp] theorem setCore_jrn (x : CoreState) : (setCore i x d).jrn = d.jrn := rfl
@[simp] theorem setCore_pair (x : CoreState) : (setCore i x d).pair = d.pair := rfl
@[simp] theorem setCore_disp (x : CoreState) : (setCore i x d).disp = d.disp := rfl
@[simp] theorem setCore_imem (x : CoreState) : (setCore i x d).imem = d.imem := rfl
@[simp] theorem setCore_mem (x : CoreState) : (setCore i x d).mem = d.mem := rfl
@[simp] theorem setCore_xbar (x : CoreState) : (setCore i x d).xbar = d.xbar := rfl
@[simp] theorem setCore_dram (x : CoreState) : (setCore i x d).dram = d.dram := rfl
@[simp] theorem setCore_eth (x : CoreState) : (setCore i x d).eth = d.eth := rfl
@[simp] theorem setCore_clk (x : CoreState) : (setCore i x d).clk = d.clk := rfl
@[simp] theorem setCore_aes (x : CoreState) : (setCore i x d).aes = d.aes := rfl
@[simp] theorem setCore_pwr (x : CoreState) : (setCore i x d).pwr = d.pwr := rfl
@[simp] theorem setCore_regs (x : CoreState) : (setCore i x d).regs = d.regs := rfl
@[simp] theorem setCore_outbox (x : CoreState) : (setCore i x d).outbox = d.outbox := rfl
@[simp] theorem setCore_free (x : CoreState) : (setCore i x d).free = d.free := rfl
@[simp] theorem coreAt_setCore (x : CoreState) : coreAt (setCore i x d) i = x := mget_mset_self _ _ _ _
theorem coreAt_setCore_ne (x : CoreState) (h : j ≠ i) : coreAt (setCore i x d) j = coreAt d j := mget_mset_ne _ _ _ h

/-! ## `setCslot` -/

@[simp] theorem setCslot_img (x : CoreSlot) : (setCslot i x d).img = d.img := rfl
@[simp] theorem setCslot_cmd (x : CoreSlot) : (setCslot i x d).cmd = d.cmd := rfl
@[simp] theorem setCslot_evt (x : CoreSlot) : (setCslot i x d).evt = d.evt := rfl
@[simp] theorem setCslot_ring (x : CoreSlot) : (setCslot i x d).ring = d.ring := rfl
@[simp] theorem setCslot_geo (x : CoreSlot) : (setCslot i x d).geo = d.geo := rfl
@[simp] theorem setCslot_xp (x : CoreSlot) : (setCslot i x d).xp = d.xp := rfl
@[simp] theorem setCslot_inp (x : CoreSlot) : (setCslot i x d).inp = d.inp := rfl
@[simp] theorem setCslot_chn (x : CoreSlot) : (setCslot i x d).chn = d.chn := rfl
@[simp] theorem setCslot_psc (x : CoreSlot) : (setCslot i x d).psc = d.psc := rfl
@[simp] theorem setCslot_jrn (x : CoreSlot) : (setCslot i x d).jrn = d.jrn := rfl
@[simp] theorem setCslot_pair (x : CoreSlot) : (setCslot i x d).pair = d.pair := rfl
@[simp] theorem setCslot_cores (x : CoreSlot) : (setCslot i x d).cores = d.cores := rfl
@[simp] theorem setCslot_imem (x : CoreSlot) : (setCslot i x d).imem = d.imem := rfl
@[simp] theorem setCslot_mem (x : CoreSlot) : (setCslot i x d).mem = d.mem := rfl
@[simp] theorem setCslot_xbar (x : CoreSlot) : (setCslot i x d).xbar = d.xbar := rfl
@[simp] theorem setCslot_dram (x : CoreSlot) : (setCslot i x d).dram = d.dram := rfl
@[simp] theorem setCslot_eth (x : CoreSlot) : (setCslot i x d).eth = d.eth := rfl
@[simp] theorem setCslot_clk (x : CoreSlot) : (setCslot i x d).clk = d.clk := rfl
@[simp] theorem setCslot_aes (x : CoreSlot) : (setCslot i x d).aes = d.aes := rfl
@[simp] theorem setCslot_pwr (x : CoreSlot) : (setCslot i x d).pwr = d.pwr := rfl
@[simp] theorem setCslot_regs (x : CoreSlot) : (setCslot i x d).regs = d.regs := rfl
@[simp] theorem setCslot_outbox (x : CoreSlot) : (setCslot i x d).outbox = d.outbox := rfl
@[simp] theorem setCslot_free (x : CoreSlot) : (setCslot i x d).free = d.free := rfl
@[simp] theorem cslotAt_setCslot (x : CoreSlot) : cslotAt (setCslot i x d) i = x := mget_mset_self _ _ _ _
theorem cslotAt_setCslot_ne (x : CoreSlot) (h : j ≠ i) : cslotAt (setCslot i x d) j = cslotAt d j := mget_mset_ne _ _ _ h

@[simp] theorem pchAt_setDec (x : Dec) : pchAt (setDec i x d) j = pchAt d j := rfl
@[simp] theorem railAt_setDec (x : Dec) : railAt (setDec i x d) j = railAt d j := rfl
@[simp] theorem decAt_setPch (x : Pch) : decAt (setPch i x d) j = decAt d j := rfl
@[simp] theorem railAt_setPch (x : Pch) : railAt (setPch i x d) j = railAt d j := rfl
@[simp] theorem decAt_setRail (x : Rail) : decAt (setRail i x d) j = decAt d j := rfl
@[simp] theorem pchAt_setRail (x : Rail) : pchAt (setRail i x d) j = pchAt d j := rfl

/-! ## `setXp` -/

@[simp] theorem setXp_img (x : XPoint) : (setXp o n x d).img = d.img := rfl
@[simp] theorem setXp_cmd (x : XPoint) : (setXp o n x d).cmd = d.cmd := rfl
@[simp] theorem setXp_evt (x : XPoint) : (setXp o n x d).evt = d.evt := rfl
@[simp] theorem setXp_ring (x : XPoint) : (setXp o n x d).ring = d.ring := rfl
@[simp] theorem setXp_geo (x : XPoint) : (setXp o n x d).geo = d.geo := rfl
@[simp] theorem setXp_inp (x : XPoint) : (setXp o n x d).inp = d.inp := rfl
@[simp] theorem setXp_chn (x : XPoint) : (setXp o n x d).chn = d.chn := rfl
@[simp] theorem setXp_psc (x : XPoint) : (setXp o n x d).psc = d.psc := rfl
@[simp] theorem setXp_jrn (x : XPoint) : (setXp o n x d).jrn = d.jrn := rfl
@[simp] theorem setXp_pair (x : XPoint) : (setXp o n x d).pair = d.pair := rfl
@[simp] theorem setXp_disp (x : XPoint) : (setXp o n x d).disp = d.disp := rfl
@[simp] theorem setXp_cores (x : XPoint) : (setXp o n x d).cores = d.cores := rfl
@[simp] theorem setXp_imem (x : XPoint) : (setXp o n x d).imem = d.imem := rfl
@[simp] theorem setXp_mem (x : XPoint) : (setXp o n x d).mem = d.mem := rfl
@[simp] theorem setXp_xbar (x : XPoint) : (setXp o n x d).xbar = d.xbar := rfl
@[simp] theorem setXp_dram (x : XPoint) : (setXp o n x d).dram = d.dram := rfl
@[simp] theorem setXp_eth (x : XPoint) : (setXp o n x d).eth = d.eth := rfl
@[simp] theorem setXp_clk (x : XPoint) : (setXp o n x d).clk = d.clk := rfl
@[simp] theorem setXp_aes (x : XPoint) : (setXp o n x d).aes = d.aes := rfl
@[simp] theorem setXp_pwr (x : XPoint) : (setXp o n x d).pwr = d.pwr := rfl
@[simp] theorem setXp_regs (x : XPoint) : (setXp o n x d).regs = d.regs := rfl
@[simp] theorem setXp_outbox (x : XPoint) : (setXp o n x d).outbox = d.outbox := rfl
@[simp] theorem setXp_free (x : XPoint) : (setXp o n x d).free = d.free := rfl
@[simp] theorem xpAt_setXp (x : XPoint) : xpAt (setXp o n x d) o n = x := mget_mset_self _ _ _ _
theorem xpAt_setXp_ne (x : XPoint) (h : 512 * i + j ≠ 512 * o + n) : xpAt (setXp o n x d) i j = xpAt d i j :=
  mget_mset_ne _ _ _ h

/-! ## `modDch` -/

@[simp] theorem modDch_img (f : DramChan → DramChan) : (modDch i f d).img = d.img := rfl
@[simp] theorem modDch_cmd (f : DramChan → DramChan) : (modDch i f d).cmd = d.cmd := rfl
@[simp] theorem modDch_evt (f : DramChan → DramChan) : (modDch i f d).evt = d.evt := rfl
@[simp] theorem modDch_ring (f : DramChan → DramChan) : (modDch i f d).ring = d.ring := rfl
@[simp] theorem modDch_geo (f : DramChan → DramChan) : (modDch i f d).geo = d.geo := rfl
@[simp] theorem modDch_xp (f : DramChan → DramChan) : (modDch i f d).xp = d.xp := rfl
@[simp] theorem modDch_inp (f : DramChan → DramChan) : (modDch i f d).inp = d.inp := rfl
@[simp] theorem modDch_chn (f : DramChan → DramChan) : (modDch i f d).chn = d.chn := rfl
@[simp] theorem modDch_psc (f : DramChan → DramChan) : (modDch i f d).psc = d.psc := rfl
@[simp] theorem modDch_jrn (f : DramChan → DramChan) : (modDch i f d).jrn = d.jrn := rfl
@[simp] theorem modDch_pair (f : DramChan → DramChan) : (modDch i f d).pair = d.pair := rfl
@[simp] theorem modDch_disp (f : DramChan → DramChan) : (modDch i f d).disp = d.disp := rfl
@[simp] theorem modDch_cores (f : DramChan → DramChan) : (modDch i f d).cores = d.cores := rfl
@[simp] theorem modDch_imem (f : DramChan → DramChan) : (modDch i f d).imem = d.imem := rfl
@[simp] theorem modDch_mem (f : DramChan → DramChan) : (modDch i f d).mem = d.mem := rfl
@[simp] theorem modDch_xbar (f : DramChan → DramChan) : (modDch i f d).xbar = d.xbar := rfl
@[simp] theorem modDch_eth (f : DramChan → DramChan) : (modDch i f d).eth = d.eth := rfl
@[simp] theorem modDch_clk (f : DramChan → DramChan) : (modDch i f d).clk = d.clk := rfl
@[simp] theorem modDch_aes (f : DramChan → DramChan) : (modDch i f d).aes = d.aes := rfl
@[simp] theorem modDch_pwr (f : DramChan → DramChan) : (modDch i f d).pwr = d.pwr := rfl
@[simp] theorem modDch_regs (f : DramChan → DramChan) : (modDch i f d).regs = d.regs := rfl
@[simp] theorem modDch_outbox (f : DramChan → DramChan) : (modDch i f d).outbox = d.outbox := rfl
@[simp] theorem modDch_free (f : DramChan → DramChan) : (modDch i f d).free = d.free := rfl

/-! ## `modRxCnt` -/

@[simp] theorem modRxCnt_img (f : RxCounters → RxCounters) : (modRxCnt i f d).img = d.img := rfl
@[simp] theorem modRxCnt_cmd (f : RxCounters → RxCounters) : (modRxCnt i f d).cmd = d.cmd := rfl
@[simp] theorem modRxCnt_evt (f : RxCounters → RxCounters) : (modRxCnt i f d).evt = d.evt := rfl
@[simp] theorem modRxCnt_ring (f : RxCounters → RxCounters) : (modRxCnt i f d).ring = d.ring := rfl
@[simp] theorem modRxCnt_geo (f : RxCounters → RxCounters) : (modRxCnt i f d).geo = d.geo := rfl
@[simp] theorem modRxCnt_xp (f : RxCounters → RxCounters) : (modRxCnt i f d).xp = d.xp := rfl
@[simp] theorem modRxCnt_chn (f : RxCounters → RxCounters) : (modRxCnt i f d).chn = d.chn := rfl
@[simp] theorem modRxCnt_psc (f : RxCounters → RxCounters) : (modRxCnt i f d).psc = d.psc := rfl
@[simp] theorem modRxCnt_jrn (f : RxCounters → RxCounters) : (modRxCnt i f d).jrn = d.jrn := rfl
@[simp] theorem modRxCnt_pair (f : RxCounters → RxCounters) : (modRxCnt i f d).pair = d.pair := rfl
@[simp] theorem modRxCnt_disp (f : RxCounters → RxCounters) : (modRxCnt i f d).disp = d.disp := rfl
@[simp] theorem modRxCnt_cores (f : RxCounters → RxCounters) : (modRxCnt i f d).cores = d.cores := rfl
@[simp] theorem modRxCnt_imem (f : RxCounters → RxCounters) : (modRxCnt i f d).imem = d.imem := rfl
@[simp] theorem modRxCnt_mem (f : RxCounters → RxCounters) : (modRxCnt i f d).mem = d.mem := rfl
@[simp] theorem modRxCnt_xbar (f : RxCounters → RxCounters) : (modRxCnt i f d).xbar = d.xbar := rfl
@[simp] theorem modRxCnt_dram (f : RxCounters → RxCounters) : (modRxCnt i f d).dram = d.dram := rfl
@[simp] theorem modRxCnt_eth (f : RxCounters → RxCounters) : (modRxCnt i f d).eth = d.eth := rfl
@[simp] theorem modRxCnt_clk (f : RxCounters → RxCounters) : (modRxCnt i f d).clk = d.clk := rfl
@[simp] theorem modRxCnt_aes (f : RxCounters → RxCounters) : (modRxCnt i f d).aes = d.aes := rfl
@[simp] theorem modRxCnt_pwr (f : RxCounters → RxCounters) : (modRxCnt i f d).pwr = d.pwr := rfl
@[simp] theorem modRxCnt_regs (f : RxCounters → RxCounters) : (modRxCnt i f d).regs = d.regs := rfl
@[simp] theorem modRxCnt_outbox (f : RxCounters → RxCounters) : (modRxCnt i f d).outbox = d.outbox := rfl
@[simp] theorem modRxCnt_free (f : RxCounters → RxCounters) : (modRxCnt i f d).free = d.free := rfl

/-! ## `modAinMed` -/

@[simp] theorem modAinMed_img (f : AinMedia → AinMedia) : (modAinMed i f d).img = d.img := rfl
@[simp] theorem modAinMed_cmd (f : AinMedia → AinMedia) : (modAinMed i f d).cmd = d.cmd := rfl
@[simp] theorem modAinMed_evt (f : AinMedia → AinMedia) : (modAinMed i f d).evt = d.evt := rfl
@[simp] theorem modAinMed_ring (f : AinMedia → AinMedia) : (modAinMed i f d).ring = d.ring := rfl
@[simp] theorem modAinMed_geo (f : AinMedia → AinMedia) : (modAinMed i f d).geo = d.geo := rfl
@[simp] theorem modAinMed_xp (f : AinMedia → AinMedia) : (modAinMed i f d).xp = d.xp := rfl
@[simp] theorem modAinMed_chn (f : AinMedia → AinMedia) : (modAinMed i f d).chn = d.chn := rfl
@[simp] theorem modAinMed_psc (f : AinMedia → AinMedia) : (modAinMed i f d).psc = d.psc := rfl
@[simp] theorem modAinMed_jrn (f : AinMedia → AinMedia) : (modAinMed i f d).jrn = d.jrn := rfl
@[simp] theorem modAinMed_pair (f : AinMedia → AinMedia) : (modAinMed i f d).pair = d.pair := rfl
@[simp] theorem modAinMed_disp (f : AinMedia → AinMedia) : (modAinMed i f d).disp = d.disp := rfl
@[simp] theorem modAinMed_cores (f : AinMedia → AinMedia) : (modAinMed i f d).cores = d.cores := rfl
@[simp] theorem modAinMed_imem (f : AinMedia → AinMedia) : (modAinMed i f d).imem = d.imem := rfl
@[simp] theorem modAinMed_mem (f : AinMedia → AinMedia) : (modAinMed i f d).mem = d.mem := rfl
@[simp] theorem modAinMed_xbar (f : AinMedia → AinMedia) : (modAinMed i f d).xbar = d.xbar := rfl
@[simp] theorem modAinMed_dram (f : AinMedia → AinMedia) : (modAinMed i f d).dram = d.dram := rfl
@[simp] theorem modAinMed_eth (f : AinMedia → AinMedia) : (modAinMed i f d).eth = d.eth := rfl
@[simp] theorem modAinMed_clk (f : AinMedia → AinMedia) : (modAinMed i f d).clk = d.clk := rfl
@[simp] theorem modAinMed_aes (f : AinMedia → AinMedia) : (modAinMed i f d).aes = d.aes := rfl
@[simp] theorem modAinMed_pwr (f : AinMedia → AinMedia) : (modAinMed i f d).pwr = d.pwr := rfl
@[simp] theorem modAinMed_regs (f : AinMedia → AinMedia) : (modAinMed i f d).regs = d.regs := rfl
@[simp] theorem modAinMed_outbox (f : AinMedia → AinMedia) : (modAinMed i f d).outbox = d.outbox := rfl
@[simp] theorem modAinMed_free (f : AinMedia → AinMedia) : (modAinMed i f d).free = d.free := rfl

/-! ## `raise`, `raiseLim`, `post` -/

variable (code func key a : Nat) (l : List Byte) (e : Env)

@[simp] theorem raise_img : (raise code func l e d).img = d.img := rfl
@[simp] theorem raise_cmd : (raise code func l e d).cmd = d.cmd := rfl
@[simp] theorem raise_ring : (raise code func l e d).ring = d.ring := rfl
@[simp] theorem raise_geo : (raise code func l e d).geo = d.geo := rfl
@[simp] theorem raise_xp : (raise code func l e d).xp = d.xp := rfl
@[simp] theorem raise_inp : (raise code func l e d).inp = d.inp := rfl
@[simp] theorem raise_chn : (raise code func l e d).chn = d.chn := rfl
@[simp] theorem raise_psc : (raise code func l e d).psc = d.psc := rfl
@[simp] theorem raise_jrn : (raise code func l e d).jrn = d.jrn := rfl
@[simp] theorem raise_pair : (raise code func l e d).pair = d.pair := rfl
@[simp] theorem raise_disp : (raise code func l e d).disp = d.disp := rfl
@[simp] theorem raise_cores : (raise code func l e d).cores = d.cores := rfl
@[simp] theorem raise_imem : (raise code func l e d).imem = d.imem := rfl
@[simp] theorem raise_mem : (raise code func l e d).mem = d.mem := rfl
@[simp] theorem raise_xbar : (raise code func l e d).xbar = d.xbar := rfl
@[simp] theorem raise_dram : (raise code func l e d).dram = d.dram := rfl
@[simp] theorem raise_eth : (raise code func l e d).eth = d.eth := rfl
@[simp] theorem raise_clk : (raise code func l e d).clk = d.clk := rfl
@[simp] theorem raise_aes : (raise code func l e d).aes = d.aes := rfl
@[simp] theorem raise_pwr : (raise code func l e d).pwr = d.pwr := rfl
@[simp] theorem raise_regs : (raise code func l e d).regs = d.regs := rfl
@[simp] theorem raise_outbox : (raise code func l e d).outbox = d.outbox := rfl
@[simp] theorem raise_free : (raise code func l e d).free = d.free := rfl

@[simp] theorem raiseLim_img : (raiseLim key code func l e d).img = d.img := by unfold raiseLim; dsimp only; split <;> rfl
@[simp] theorem raiseLim_cmd : (raiseLim key code func l e d).cmd = d.cmd := by unfold raiseLim; dsimp only; split <;> rfl
@[simp] theorem raiseLim_ring : (raiseLim key code func l e d).ring = d.ring := by unfold raiseLim; dsimp only; split <;> rfl
@[simp] theorem raiseLim_geo : (raiseLim key code func l e d).geo = d.geo := by unfold raiseLim; dsimp only; split <;> rfl
@[simp] theorem raiseLim_xp : (raiseLim key code func l e d).xp = d.xp := by unfold raiseLim; dsimp only; split <;> rfl
@[simp] theorem raiseLim_inp : (raiseLim key code func l e d).inp = d.inp := by unfold raiseLim; dsimp only; split <;> rfl
@[simp] theorem raiseLim_chn : (raiseLim key code func l e d).chn = d.chn := by unfold raiseLim; dsimp only; split <;> rfl
@[simp] theorem raiseLim_psc : (raiseLim key code func l e d).psc = d.psc := by unfold raiseLim; dsimp only; split <;> rfl
@[simp] theorem raiseLim_jrn : (raiseLim key code func l e d).jrn = d.jrn := by unfold raiseLim; dsimp only; split <;> rfl
@[simp] theorem raiseLim_pair : (raiseLim key code func l e d).pair = d.pair := by unfold raiseLim; dsimp only; split <;> rfl
@[simp] theorem raiseLim_disp : (raiseLim key code func l e d).disp = d.disp := by unfold raiseLim; dsimp only; split <;> rfl
@[simp] theorem raiseLim_cores : (raiseLim key code func l e d).cores = d.cores := by unfold raiseLim; dsimp only; split <;> rfl
@[simp] theorem raiseLim_imem : (raiseLim key code func l e d).imem = d.imem := by unfold raiseLim; dsimp only; split <;> rfl
@[simp] theorem raiseLim_mem : (raiseLim key code func l e d).mem = d.mem := by unfold raiseLim; dsimp only; split <;> rfl
@[simp] theorem raiseLim_xbar : (raiseLim key code func l e d).xbar = d.xbar := by unfold raiseLim; dsimp only; split <;> rfl
@[simp] theorem raiseLim_dram : (raiseLim key code func l e d).dram = d.dram := by unfold raiseLim; dsimp only; split <;> rfl
@[simp] theorem raiseLim_eth : (raiseLim key code func l e d).eth = d.eth := by unfold raiseLim; dsimp only; split <;> rfl
@[simp] theorem raiseLim_clk : (raiseLim key code func l e d).clk = d.clk := by unfold raiseLim; dsimp only; split <;> rfl
@[simp] theorem raiseLim_aes : (raiseLim key code func l e d).aes = d.aes := by unfold raiseLim; dsimp only; split <;> rfl
@[simp] theorem raiseLim_pwr : (raiseLim key code func l e d).pwr = d.pwr := by unfold raiseLim; dsimp only; split <;> rfl
@[simp] theorem raiseLim_regs : (raiseLim key code func l e d).regs = d.regs := by unfold raiseLim; dsimp only; split <;> rfl
@[simp] theorem raiseLim_outbox : (raiseLim key code func l e d).outbox = d.outbox := by unfold raiseLim; dsimp only; split <;> rfl
@[simp] theorem raiseLim_free : (raiseLim key code func l e d).free = d.free := by unfold raiseLim; dsimp only; split <;> rfl

@[simp] theorem post_img : (post a l d).img = d.img := by unfold post; split <;> rfl
@[simp] theorem post_cmd : (post a l d).cmd = d.cmd := by unfold post; split <;> rfl
@[simp] theorem post_evt : (post a l d).evt = d.evt := by unfold post; split <;> rfl
@[simp] theorem post_ring : (post a l d).ring = d.ring := by unfold post; split <;> rfl
@[simp] theorem post_geo : (post a l d).geo = d.geo := by unfold post; split <;> rfl
@[simp] theorem post_xp : (post a l d).xp = d.xp := by unfold post; split <;> rfl
@[simp] theorem post_inp : (post a l d).inp = d.inp := by unfold post; split <;> rfl
@[simp] theorem post_chn : (post a l d).chn = d.chn := by unfold post; split <;> rfl
@[simp] theorem post_psc : (post a l d).psc = d.psc := by unfold post; split <;> rfl
@[simp] theorem post_jrn : (post a l d).jrn = d.jrn := by unfold post; split <;> rfl
@[simp] theorem post_pair : (post a l d).pair = d.pair := by unfold post; split <;> rfl
@[simp] theorem post_disp : (post a l d).disp = d.disp := by unfold post; split <;> rfl
@[simp] theorem post_cores : (post a l d).cores = d.cores := by unfold post; split <;> rfl
@[simp] theorem post_imem : (post a l d).imem = d.imem := by unfold post; split <;> rfl
@[simp] theorem post_mem : (post a l d).mem = d.mem := by unfold post; split <;> rfl
@[simp] theorem post_xbar : (post a l d).xbar = d.xbar := by unfold post; split <;> rfl
@[simp] theorem post_dram : (post a l d).dram = d.dram := by unfold post; split <;> rfl
@[simp] theorem post_eth : (post a l d).eth = d.eth := by unfold post; split <;> rfl
@[simp] theorem post_clk : (post a l d).clk = d.clk := by unfold post; split <;> rfl
@[simp] theorem post_aes : (post a l d).aes = d.aes := by unfold post; split <;> rfl
@[simp] theorem post_pwr : (post a l d).pwr = d.pwr := by unfold post; split <;> rfl
@[simp] theorem post_regs : (post a l d).regs = d.regs := by unfold post; split <;> rfl
@[simp] theorem post_free : (post a l d).free = d.free := by unfold post; split <;> rfl

/-- A posted write joins the others unless the device issues no DMA (R252). -/
theorem post_outbox : (post a l d).outbox =
    if !d.ring.busMaster || d.ring.d3hot then d.outbox else d.outbox ++ [(a, l)] := by
  unfold post; split <;> rfl

/-- The event store never holds more than 256 events (R270). -/
theorem evtPush_length (ev : Event) (t : EvtState) (h : t.store.length ≤ 256) : (evtPush ev t).store.length ≤ 256 := by
  unfold evtPush
  split
  · simp; omega
  · dsimp only
    split
    · next hc =>
      simp only [Bool.and_eq_true, List.any_eq_true] at hc
      obtain ⟨x, hx, hp⟩ := hc.2
      simp only [List.length_append, List.length_singleton]
      have := List.length_eraseP_of_mem (p := fun x : Event => decide (x.code / 0x1000 < 3)) hx hp
      have := List.length_pos_of_mem hx
      omega
    · exact h

/-- With room in the store, an event joins it last and nothing is lost. -/
theorem evtPush_room (ev : Event) (t : EvtState) (h : t.store.length < 256) :
    evtPush ev t = { t with store := t.store ++ [ev] } := if_pos h

/-- `when` on a condition that holds. -/
@[simp] theorem when_true (f : Device → Device) : when true f d = f d := rfl
/-- `when` on a condition that fails. -/
@[simp] theorem when_false (f : Device → Device) : when false f d = d := rfl
@[simp] theorem forAll_nil {α : Type} (f : α → Device → Device) : forAll [] f d = d := rfl
@[simp] theorem forAll_cons {α : Type} (f : α → Device → Device) (b : α) (k : List α) :
    forAll (b :: k) f d = forAll k f (f b d) := rfl

/-! ## The form of a command -/

/-- Everything `runDev` can do: it always answers, and leaves `State.after`. -/
theorem runDev_eq (h : HostView) (f : Env → Device → Device) (s : State) :
    runDev h f s = .next (s.after h (f (envOf h s) s.dev)) := rfl

/-- A command of a device that is alive. -/
theorem actH_alive (h : HostView) (f : Env → Device → Device) (s : State) (ha : s.dev.alive = true) :
    actH h f s = .next (s.after h (f (envOf h s) s.dev)) := by
  simp [actH, runDev_eq, ha]

/-- A command of a device in reset or without power changes nothing of it. -/
theorem actH_dead (h : HostView) (f : Env → Device → Device) (s : State) (ha : s.dev.alive = false) :
    actH h f s = .next (s.after h s.dev) := by
  simp [actH, runDev_eq, ha]

theorem act_alive (f : Env → Device → Device) (s : State) (ha : s.dev.alive = true) :
    act f s = .next (s.after {} (f (envOf {} s) s.dev)) := actH_alive {} f s ha

theorem act_dead (f : Env → Device → Device) (s : State) (ha : s.dev.alive = false) :
    act f s = .next (s.after {} s.dev) := actH_dead {} f s ha

variable (s : State) (h : HostView)

@[simp] theorem after_pending : (s.after h d).pending = s.pending := rfl
@[simp] theorem after_fn : (s.after h d).fc.fn = s.fc.fn := rfl
@[simp] theorem after_fnx : (s.after h d).fc.fnx = s.fc.fnx := rfl
@[simp] theorem after_fnSync : (s.after h d).fc.fnSync = (s.fc.fnSync && !d.pwr.quiet) := rfl
@[simp] theorem after_dev : (s.after h d).dev = { d with outbox := [] } := rfl
@[simp] theorem after_hostMem : (s.after h d).hostMem = memWrites (msets 0 s.hostMem h.stores) d.outbox := rfl

/-- Host memory keeps its canonical form whatever a command stores and posts. -/
theorem after_wf (hm : Memory.wf s.hostMem = true) : Memory.wf (s.after h d).hostMem = true :=
  memWrites_wf _ _ (msets_wf _ _ _ hm)

end Sys2Proof.Machine
end

