-- ==== Sys2Proof/Tests/Slice0.lean ====
section
/-! SUPPORT. The author's own tests: ill-formed commands refused, core words read, worked examples of the spec, and for every
statement with hypotheses a state and operands that meet them (the theorems `witness_<Name>`). -/
namespace Sys2Proof.Tests
open Sys2Proof Sys2Proof.Machine

/-! ## Ill-formed commands: one for each check of WellFormed -/

/-- A format A instruction with nothing but its operands. -/
def fa (dst a b : BitVec 5) (lane : Lane) : AFmt := { dst := dst, srcA := a, srcB := b, lane := lane, move0 := none, move1 := none }
/-- A load of a word into D[1] through A[0]. -/
def ld (size : BitVec 3) : Move := { store := false, dreg := 1, preg := 0, size := size, mod := 1 }

/-- A core that does not exist. -/
theorem test_wf_core : wellFormed (.fadd 64 (fa 0 1 2 .lo)) = false ∧ wellFormed (.fadd 63 (fa 0 1 2 .lo)) = true := by decide
/-- SIZE 6 is reserved, and 5 on a store (R352). -/
theorem test_wf_move : wellFormed (.insnNop 0 { fa 0 0 0 .lo with move0 := some (ld 6) }) = false
    ∧ wellFormed (.insnNop 0 { fa 0 0 0 .lo with move1 := some { ld 5 with store := true } }) = false
    ∧ wellFormed (.insnNop 0 { fa 0 0 0 .lo with move0 := some (ld 5) }) = true := by decide
/-- The fields that a shape does not use are zero. -/
theorem test_wf_shape : wellFormed (.insnNop 0 (fa 1 0 0 .lo)) = false ∧ wellFormed (.fabs 0 (fa 1 2 3 .lo)) = false
    ∧ wellFormed (.fdiv 0 (fa 1 2 3 .pair)) = false ∧ wellFormed (.fsqrt 0 (fa 1 2 0 .pairb)) = false
    ∧ wellFormed (.fcmp 0 (fa 1 2 3 .lo)) = false ∧ wellFormed (.ptof 0 (fa 1 2 3 .lo)) = false
    ∧ wellFormed (.dmov 0 (fa 1 2 0 .hi)) = false := by decide
/-- Special registers of R354, LDF's lane, HOLD's n, XFER's count. -/
theorem test_wf_fields : wellFormed (.mts 0 0x2C 1) = false ∧ wellFormed (.mfs 0 0x45 1) = false
    ∧ wellFormed (.mtsi 0 0x58 1) = false ∧ wellFormed (.ldf 0 1 .pairb 0) = false ∧ wellFormed (.hold 0 3) = false
    ∧ wellFormed (.xfer 0 true 0 0 0 0) = false ∧ wellFormed (.xfer 0 true 0 0 0 8193) = false
    ∧ wellFormed (.iaddi 64 0 0 0) = false ∧ wellFormed (.taskDispatch 64) = false := by decide
/-- Elements that the device does not have. -/
theorem test_wf_elements : wellFormed (.bayEngineStart 16) = false ∧ wellFormed (.mdStale 1024) = false
    ∧ wellFormed (.cveDone ⟨512, 0⟩) = false ∧ wellFormed (.objectAudioQueue 128) = false
    ∧ wellFormed (.ringFault 128) = false ∧ wellFormed (.vectorUnmask 32) = false
    ∧ wellFormed (.ratioLock 8) = false ∧ wellFormed (.txUnderrun 8) = false ∧ wellFormed (.csCommit 8 0) = false
    ∧ wellFormed (.uCommit 0 2) = false ∧ wellFormed (.bsStuck 40) = false ∧ wellFormed (.rcClear 16) = false
    ∧ wellFormed (.railLow 4) = false ∧ wellFormed (.refreshDue 2) = false
    ∧ wellFormed (.bankIdlePrecharge 0 32) = false ∧ wellFormed (.xbarGrant 25) = false
    ∧ wellFormed (.masterResetRelease 18) = false ∧ wellFormed (.linkUp 4) = false
    ∧ wellFormed (.registerWrite 0xFFFFE 4 0) = false := by decide
/-- A crossbar transaction is 1 to 512 words of one of 18 masters. -/
theorem test_wf_xbar : wellFormed (.xbarRequest { master := 18, addr := 0, write := false, words := 1 }) = false
    ∧ wellFormed (.xbarRequest { master := 0, addr := 0, write := false, words := 0 }) = false
    ∧ wellFormed (.xbarRequest { master := 0, addr := 0, write := false, words := 513 }) = false := by decide

/-! ## Core words written out from R351 to R354 -/

/-- i3 of the FIR example: FMAC PAIR D[0], D[1], D[2]; ld W D[1] <- [A[0]] +1; ld H_BOTH D[2] <- [A[1]] +1 (R354). -/
theorem test_word_fmac : decodeCoreWord 5 0x1001140084358201#64 = some (.fmac 5
    { dst := 0, srcA := 1, srcB := 2, lane := .pair
      move1 := some { store := false, dreg := 2, preg := 1, size := 5, mod := 1 }
      move0 := some { store := false, dreg := 1, preg := 0, size := 0, mod := 1 } }) := by decide
/-- FDIV HI D[31], D[16], D[1]: 001011 11111 10000 00001 01. -/
theorem test_word_fdiv : decodeCoreWord 0 0b0010111111110000000010100000000000000000000000000000000000000000#64
    = some (.fdiv 0 (fa 31 16 1 .hi)) := by decide
/-- IADDI D[2], D[3], -1: 101000 00010 00011, IMM32 all ones. -/
theorem test_word_iaddi : decodeCoreWord 0 0b1010000001000011000000000000000011111111111111111111111111111111#64
    = some (.iaddi 0 2 3 0xFFFFFFFF) := by decide
/-- MTS FLAGS, D[4]: 101010 1000111 00100. -/
theorem test_word_mts : decodeCoreWord 0 0b1010101000111001000000000000000000000000000000000000000000000000#64
    = some (.mts 0 0x47 4) := by decide
/-- LDF PAIR D[7], IMM36 = 1: 101110 00111 10. -/
theorem test_word_ldf : decodeCoreWord 0 0b1011100011110000000000000000000000000000000000000000000000000001#64
    = some (.ldf 0 7 .pair 1) := by decide
/-- BR GE 0x8001: 110000 0100. -/
theorem test_word_br : decodeCoreWord 0 0b1100000100000000000000000000000000000000000000001000000000000001#64
    = some (.br 0 4 0x8001) := by decide
/-- REP 32, END 0x8010: 110011, COUNT 32 in [47:32], END in [31:16]. -/
theorem test_word_rep : decodeCoreWord 0 0b1100110000000000000000000010000010000000000100000000000000000000#64
    = some (.rep 0 32 0x8010) := by decide
/-- XFER to the crossbar, TAG 2, PS 15, DA 9, COUNT 8,192: 111000 1 10 1111 01001 10000000000000. -/
theorem test_word_xfer : decodeCoreWord 0 0b1110001101111010011000000000000000000000000000000000000000000000#64
    = some (.xfer 0 true 2 15 9 8192) := by decide
/-- A reserved opcode, a reserved bit, a reserved LANE and a COUNT of 0 spell nothing (R322, R351). -/
theorem test_word_reserved : decodeCoreWord 0 0x5400000000000000#64 = none ∧ decodeCoreWord 0 0x0400000100000000#64 = none
    ∧ decodeCoreWord 0 0xB818000000000000#64 = none ∧ decodeCoreWord 0 0xE000000000000000#64 = none := by decide
/-- No row of the table gives bits. -/
theorem test_no_table_word : decodeTableWord 0 0 = none ∧ State.reset.withFetchWord 0 0 = State.reset := by decide

/-! ## States that meet the hypotheses of the statements -/

/-- The machine after reset with another device. -/
def st (f : Device → Device) : State := { State.reset with dev := f State.reset.dev }
def rst : Device := State.reset.dev
def inRing (f : RingEngine → RingEngine) (d : Device) : Device := { d with ring := f d.ring }
def inClk (f : ClkState → ClkState) (d : Device) : Device := { d with clk := f d.clk }
def inPwr (f : PwrState → PwrState) (d : Device) : Device := { d with pwr := f d.pwr }
/-- A device whose SRAM has been cleared (R483). -/
def clear (d : Device) : Device := inPwr (fun p => { p with sramClear := true }) d
def inPair (f : PairState → PairState) (d : Device) : Device := { d with pair := f d.pair }
def inImg (f : Image → Image) (d : Device) : Device := { d with img := { d.img with img := some (f {}) } }
def note (c : Nat) : Event := { code := c, func := 0, fn := 0, timeNs := 0, detail := [] }
def stored (l : List Event) (d : Device) : Device := { d with evt := { d.evt with store := l } }

theorem witness_StepRunsTheFrontCommand : State.reset.pending = [] := by decide
theorem witness_EveryStepKeepsSoundness :
    Sound { State.reset with pending := [.d3hotEntry] } ∧ ∃ t, step { State.reset with pending := [.d3hotEntry] } = .next t :=
  ⟨by unfold Sound; decide, _, rfl⟩
theorem witness_FnIsTheLowHalfOfFnx :
    State.reset.fc.fn = State.reset.fc.fnx.setWidth 32 ∧ ∃ t, step State.reset = .next t := ⟨by decide, _, rfl⟩

/-- Room for one; full of notes; a note between warnings and faults; full of faults. -/
theorem witness_EventStoreHolds256Events :
    (rst.evt.store.length < 256 ∧ rst.evt.store.length ≤ 256)
    ∧ ((stored (List.replicate 255 (note 0x1001)) rst).evt.store.length < 256)
    ∧ ((stored (List.replicate 256 (note 0x1001)) rst).evt.store.length = 256 ∧ 0x2FFF / 0x1000 < 3)
    ∧ ((stored (List.replicate 255 (note 0x3001) ++ note 0x2001 :: []) rst).evt.store.length = 256
        ∧ (0x3000 : Nat) / 0x1000 ≥ 3 ∧ decide ((note 0x2001).code / 0x1000 < 3) = true
        ∧ ∀ y ∈ List.replicate 255 (note 0x3001), decide (y.code / 0x1000 < 3) = false)
    ∧ ((stored (List.replicate 256 (note 0x3001)) rst).evt.store.length = 256
        ∧ ∀ y ∈ List.replicate 256 (note 0x3001), decide (y.code / 0x1000 < 3) = false) := by
  refine ⟨by decide, by decide +kernel, by decide +kernel, ⟨by decide +kernel, by decide, by decide, ?_⟩, by decide +kernel, ?_⟩
  all_goals intro y h; rw [List.eq_of_mem_replicate h]; decide

theorem witness_PostedWritesChangeOnlyTheirBytes :
    (rst.ring.busMaster = false ∧ (inRing (fun r => { r with busMaster := true, d3hot := true }) rst).ring.d3hot = true)
    ∧ ((inRing (fun r => { r with busMaster := true }) rst).ring.busMaster = true
        ∧ (inRing (fun r => { r with busMaster := true }) rst).ring.d3hot = false)
    ∧ ((4 : Nat) < 5 ∨ (5 : Nat) + [0#8].length ≤ 4) ∧ ((6 : Nat) < 5 ∨ (5 : Nat) + [0#8].length ≤ 6)
    ∧ 0 < [0#8].length := by decide

/-- RING_GO set, then clear; vector 31 pending, then not; HB_AGE at 600 and below; rings 127 and 1 after four failures. -/
theorem witness_RingSwitchesActOnTheirBits :
    (st clear).dev.alive = true ∧ (st clear).dev.pwr.sramClear = true ∧ rst.ring.go = false
    ∧ (inRing (fun r => { r with go := true }) rst).ring.go = true
    ∧ (rst.ring.msixPend &&& BitVec.ofNat 32 (2 ^ 31) = 0 ∧ (31 : Nat) < 32 ∧ 32 ≤ (32 : Nat))
    ∧ (inRing (fun r => { r with msixPend := 0x80000000 }) rst).ring.msixPend &&& BitVec.ofNat 32 (2 ^ 31) ≠ 0
    ∧ (let r := (inRing (fun r => { r with go := true, hbAge := 600 }) rst).ring;
        r.go = true ∧ r.hbStale = false ∧ 600 ≤ r.hbAge)
    ∧ (inRing (fun r => { r with go := true, hbAge := 599 }) rst).ring.hbAge < 600
    ∧ (∀ r ∈ [127, 1], let d := setRing r { retries := 4 } rst;
        r < 128 ∧ (ringAt d r).fault = false ∧ 4 ≤ (ringAt d r).retries
        ∧ d.ring.msixMask &&& BitVec.ofNat 32 (2 ^ (d.ring.errVec % 32)) ≠ 0)
    ∧ (let d := inRing (fun r => { r with msixMask := 0 }) (setRing 2 { retries := 4 } rst);
        (ringAt d 2).fault = false ∧ d.ring.msixMask &&& BitVec.ofNat 32 (2 ^ (d.ring.errVec % 32)) = 0) := by decide

/-- A ring table at address 0 whose entries of rings 0 to 3 are valid, of 16 and of 65,536 entries. -/
def tableMem : List Host.Cell := [(8, 16), (12, 1), (72, 16), (76, 1), (136, 16), (140, 1), (202, 1), (204, 1)]
def ringsReady : State := { st (fun d => inRing (fun r => { r with busMaster := true }) (clear d)) with hostMem := tableMem }

theorem witness_RingGoStartsTheFirstFourRings :
    (ringsReady.dev.alive = true ∧ ringsReady.dev.pwr.sramClear = true
      ∧ (ringsReady.dev.ring.go = false ∨ ringsReady.dev.ring.stopping = true))
    ∧ (inRing (fun r => { r with tblBase := 32 }) rst).ring.tblBase.toNat % 64 ≠ 0
    ∧ (∀ r < 4, ∃ b, ringEntry r (envOf {} ringsReady) ringsReady.dev = some b ∧ bit (fld b 0xC 1) 0 = true
        ∧ fld b 0 8 % 64 = 0 ∧ ∃ k, 4 ≤ k ∧ k ≤ 16 ∧ fld b 8 4 = 2 ^ k) := by
  refine ⟨by decide, by decide, fun r h => ?_⟩
  match r, h with
  | 0, _ => exact ⟨_, rfl, by decide, by decide, 4, by decide⟩
  | 1, _ => exact ⟨_, rfl, by decide, by decide, 4, by decide⟩
  | 2, _ => exact ⟨_, rfl, by decide, by decide, 4, by decide⟩
  | 3, _ => exact ⟨_, rfl, by decide, by decide, 16, by decide⟩

/-- The ring engine runs with DMA; ring `r` runs as given. -/
def engine (d : Device) : Device := inRing (fun r => { r with go := true, busMaster := true }) d
def ringUp (r : Nat) (q : Ring) (d : Device) : Device := setRing r { q with run := true } (engine d)

/-- Nothing unsignalled; one entry unsignalled, with the vector unmasked and masked; an entry that must interrupt. -/
theorem witness_IndexWriteBackInterruptsWhenDue :
    (let d := ringUp 127 { irq := true } rst;
      d.alive = true ∧ d.ring.go = true ∧ d.ring.busMaster = true ∧ d.ring.d3hot = false ∧ (ringAt d 127).run = true
      ∧ (ringAt d 127).unsig = 0)
    ∧ (let d := inRing (fun r => { r with msixMask := 0 }) (ringUp 0 { irq := true, unsig := 1 } rst);
      d.alive = true ∧ (ringAt d 0).irq = true ∧ (ringAt d 0).unsig ≠ 0 ∧ (ringAt d 0).unsig ≥ (ringAt d 0).modCount
      ∧ d.ring.msixMask &&& BitVec.ofNat 32 (2 ^ ((ringAt d 0).vec % 32)) = 0)
    ∧ (let d := ringUp 2 { irq := true, unsig := 1, modCount := 9, modFrames := 9, urgent := true } rst;
      (ringAt d 2).unsig ≠ 0 ∧ (ringAt d 2).urgent = true
      ∧ d.ring.msixMask &&& BitVec.ofNat 32 (2 ^ ((ringAt d 2).vec % 32)) ≠ 0) := by decide

def block (area : Option Area) : ResultBlk :=
  { done := true, marks := 0, status := 0, opcode := 10, func := 0, tag := 0, ridx := 0, af := 0, area := area }
def traced : TraceRec := { typ := 7, core := 0, task := 0, fn := 0, arg := 0, depth := 0, rseq := 0 }

theorem witness_ResultEventAndTraceDescriptorsAreWritten :
    (let d := { ringUp 1 {} rst with cmd := { results := [block none] } };
      d.alive = true ∧ d.cmd.results = [block none] ∧ (block none).area = none ∧ ringLive d 1 = true ∧ 0 < roomOf (ringAt d 1))
    ∧ (let d := { ringUp 1 { didx := 15 } rst with cmd := { results := [block (some ⟨64, 64, 0, []⟩)] } };
      (d.cmd.results.map (·.area)) = [some ⟨64, 64, 0, []⟩] ∧ ringLive d 1 = true ∧ 0 < roomOf (ringAt d 1))
    ∧ (rst.cmd.results = [] ∧ ringLive rst 1 = false ∧ roomOf (ringAt (ringUp 1 { didx := 16 } rst) 1) = 0)
    ∧ (let d := stored [note 0x1004] (ringUp 2 {} rst);
      ringLive d 2 = true ∧ 0 < roomOf (ringAt d 2) ∧ d.evt.first.length < 4 ∧ d.evt.lostNow = 0
      ∧ d.evt.first ++ d.evt.store ≠ [])
    ∧ (let d := { ringUp 2 {} rst with evt := { first := List.replicate 3 (note 0x1016), lostNow := 1 } };
      ringLive d 2 = true ∧ 0 < roomOf (ringAt d 2) ∧ d.evt.first.length < 4 ∧ d.evt.lostNow ≠ 0)
    ∧ ringLive rst 2 = false
    ∧ (let d := { ringUp 3 {} rst with disp := { trace := { buf := [traced] } } };
      ringLive d 3 = true ∧ 0 < roomOf (ringAt d 3) ∧ d.disp.trace.buf ≠ [])
    ∧ (ringLive rst 3 = false ∧ rst.disp.trace.buf = []) := by decide

/-- No record due; one due without the ring; one due with exactly the room it needs. -/
theorem witness_TelemetryRecordIsWholeOrSkipped :
    (rst.alive = true ∧ rst.ring.telDue = false)
    ∧ (let d := inRing (fun r => { r with telDue := true }) rst; d.ring.telDue = true ∧ ringLive d 5 = false)
    ∧ (let d := inRing (fun r => { r with telDue := true }) (ringUp 5 { size := 32, didx := 30 } rst);
      d.ring.telDue = true ∧ ringLive d 5 = true ∧ telemLen d = roomOf (ringAt d 5))
    ∧ (let d := inRing (fun r => { r with telDue := true }) (ringUp 5 { size := 32, didx := 31 } rst);
      d.ring.telDue = true ∧ roomOf (ringAt d 5) < telemLen d) := by decide

def fetching (hb : Option (BitVec 32)) (stale : Bool) : Device :=
  inRing (fun r => { r with fetching := true, hb := hb, hbStale := stale }) (engine rst)

/-- A fetch fails; the heartbeat is the first, new, new after HB_STALE; an index holds SIZE entries, and one more. -/
theorem witness_DoorbellFetchBringsIndicesAndHeartbeat :
    (∀ d ∈ [fetching none false, fetching (some 7) false, fetching (some 7) true],
      d.alive = true ∧ d.ring.fetching = true ∧ d.ring.go = true)
    ∧ fetched (envOf {} State.reset) rst = none
    ∧ (∀ d ∈ [fetching none false, fetching (some 7) false, fetching (some 7) true],
      (fetched (envOf {} State.reset) d).map (·.1) = some 0)
    ∧ ((fetching none false).ring.hb = none ∧ (fetching (some 7) false).ring.hb ≠ some 0
      ∧ (fetching (some 7) false).ring.hbStale = false ∧ (fetching (some 7) true).ring.hbStale = true)
    ∧ (let d := ringUp 0 { didx := 3 } rst; (ringAt d 0).run = true ∧ ((19 : BitVec 32) - (ringAt d 0).didx).toNat ≤ (ringAt d 0).size
      ∧ (ringAt d 0).size < ((20 : BitVec 32) - (ringAt d 0).didx).toNat) := by decide

/-! ### Host commands -/

theorem accepts_of {op : Nat} {c : CmdDesc} {h : HostView} {s : State}
    (h1 : s.dev.alive = true ∧ ringTakes s.dev = true ∧ HasRoom s.dev ∧ s.dev.cmd.held = false)
    (h2 : (consider op c (ringAt s.dev 0).didx false none (envOf h s) (readOne s.dev)).1 = (0, []))
    (h3 : (consider op c (ringAt s.dev 0).didx false none (envOf h s) (readOne s.dev)).2.isSome = true) :
    ∃ p, Accepts op c h s p := by
  obtain ⟨p, hp⟩ := Option.isSome_iff_exists.mp h3
  exact ⟨p, h1.1, h1.2.1, h1.2.2.1, h1.2.2.2, Prod.ext h2 hp⟩

/-- The CMD and RESULT rings run. -/
def hosted (d : Device) : Device := ringUp 1 {} (ringUp 0 {} d)
def small (i : Image) : Image := { i with nObj := 1, nOut := 1 }
def asap (args : List Byte) : CmdDesc := { cflags := 1, args := args }
/-- Hub A of a pair, active; its peer is in sync. -/
def activeHub (d : Device) : Device := inPair (fun p => { p with st := .active, up := true }) (inImg (fun i => { small i with pairId := 1 }) d)

def bytes (n : Nat) (l : List (Nat × Byte)) : List Byte := (List.range n).map (fun i => (l.lookup i).getD 0)
def hostSt (f : Device → Device) : State := st (fun d => f (hosted (inImg small d)))
def pairedSt (f : Device → Device) : State := st (fun d => f (activeHub (hosted d)))
def limitMem : List Host.Cell := (List.range 36).map (fun k => (80 + 2 * k, 100))
def limitSt : State := { hostSt (fun d => { d with jrn := { d.jrn with unlocked := true } }) with hostMem := limitMem }
def limitCmd : CmdDesc := { asap (zeros 32) with addr := 64, len := 128 }
def peerSt (n : Nat) : StatusMsg :=
  { from_ := 1, fn := 0, pstate := n, active := false, fit := true, sync := true, nc := false, epoch := 0, mseq := 0
    dfn := 0, dmask := 0, img := 0, digests := [] }
def alone (d : Device) : Device := inPair (fun p => { p with st := .stopped, streamSilence := 3, statusSilence := 3 }) d
def away (d : Device) : Device := setCoreSt 5 .offline 0 (envOf {} State.reset) d
def withPeer (n : Nat) (d : Device) : Device := inPair (fun p => { p with peer := some (peerSt n) }) d
def budgeted (d : Device) : Device := { d with img := { d.img with budget := zeros 14 |>.map (·.toNat) |>.append [1000000] } }

/-- A load of one tap of output 0's FIR set, on a hub whose output 0 convolves. -/
def firCmd : CmdDesc := { asap (bytes 32 [(0, 3)]) with addr := 64, len := 128 }
def firSt : State :=
  let s := hostSt (fun d => { d with img := { (inImg (fun i => { small i with outs := [{ convMax := 128 }] }) d).img with
    budget := zeros 14 |>.map (·.toNat) |>.append [1000000] } })
  { s with hostMem := [(64, 1)] }
/-- NOP and FENCE, CORE_ONLINE, LIMIT_COMMIT and RENDER_START on a hub without a partner; RENDER_START and PAIR_HANDOVER on
hubs of a pair; a load of a FIR set. -/
theorem witness_AcceptedHostCommandWaitsForItsFrame :
    (∃ p, Accepts 1 (asap (zeros 32)) {} (hostSt id) p) ∧ (∃ p, Accepts 2 (asap (zeros 32)) {} (hostSt id) p)
    ∧ paired (hostSt id).dev = false
    ∧ (∃ p, Accepts 7 (asap (bytes 32 [(0, 5)])) {} (hostSt (fun d => away (budgeted d))) p)
    ∧ (∃ p, Accepts 0x404 limitCmd {} limitSt p) ∧ (∃ p, Accepts 3 (asap (zeros 32)) {} (hostSt id) p)
    ∧ (∃ p, Accepts 3 (asap (zeros 32)) {} (pairedSt alone) p)
    ∧ (∃ p, Accepts 0x506 (asap (zeros 32)) {} (pairedSt (withPeer 3)) p) ∧ paired (pairedSt alone).dev = true
    ∧ (∃ p, Accepts 0x202 firCmd {} firSt p) := by
  refine ⟨?_, ?_, by decide +kernel, ?_, ?_, ?_, ?_, ?_, by decide +kernel, ?_⟩
  all_goals exact accepts_of (by unfold HasRoom; decide +kernel) (by decide +kernel) (by decide +kernel)

theorem witness_AcceptedCommandIsMirrored :
    (∃ p, Accepts 0x303 (asap (bytes 32 [(2, 1), (3, 1)])) {} (pairedSt id) p) ∧ paired (pairedSt id).dev = true
    ∧ isActive (pairedSt id).dev.pair = true ∧ (pairedSt id).dev.pair.up = true ∧ pairCol 0x303 0 = .m :=
  ⟨accepts_of (by unfold HasRoom; decide +kernel) (by decide +kernel) (by decide +kernel), by decide +kernel⟩

/-- A NOP with a set reserved byte; a LIMIT_COMMIT while the unlock is closed. -/
theorem witness_RefusedHostCommandPostsOneDone :
    (∃ r, consider 1 (asap (bytes 32 [(31, 1)])) 0 false none (envOf {} (hostSt id)) (readOne (hostSt id).dev) = (r, none))
    ∧ (∃ r, consider 0x404 limitCmd 0 false none (envOf {} limitSt) (readOne (hostSt id).dev) = (r, none))
    ∧ (ringAt (hostSt id).dev 0).didx = 0 ∧ (hostSt id).dev.alive = true ∧ ringTakes (hostSt id).dev = true
    ∧ HasRoom (hostSt id).dev ∧ (hostSt id).dev.cmd.held = false := by
  unfold HasRoom
  refine ⟨⟨_, Prod.ext rfl ?_⟩, ⟨_, Prod.ext rfl ?_⟩, ?_⟩
  all_goals decide +kernel

/-- A NOP that waits in a queue. -/
def waiting (uid af : Nat) : Pend :=
  { uid := BitVec.ofNat 32 uid, opcode := 1, d := asap (zeros 32), ridx := 0, af := BitVec.ofNat 32 af }
def inCmd (f : CmdState → CmdState) (d : Device) : Device := { d with cmd := f d.cmd }

/-- A FENCE is open; 256 read; the CMD ring stopped; the RESULT ring full; stopped; 4,096 wait, and then fewer. -/
theorem witness_HostCommandWaitsInItsRing :
    ((hostSt (inCmd (fun k => { k with fence := some 1 }))).dev.cmd.fence ≠ none)
    ∧ (256 ≤ (hostSt (inCmd (fun k => { k with readNow := 256 }))).dev.cmd.readNow)
    ∧ ringLive rst 0 = false
    ∧ (∀ d ∈ [(hostSt (ringUp 1 { didx := 16 })).dev, setRing 1 {} (hostSt id).dev],
      ringTakes d = true ∧ ¬HasRoom d ∧ d.cmd.held = false)
    ∧ (let d := inCmd (fun k => { k with queue := List.replicate 4096 (waiting 1 9), held := true }) (hostSt id).dev;
      ringTakes d = true ∧ ¬HasRoom d ∧ d.cmd.held = true)
    ∧ (let d := inCmd (fun k => { k with queue := List.replicate 4095 (waiting 1 9), held := true }) (hostSt id).dev;
      ringTakes d = true ∧ HasRoom d ∧ d.cmd.held = true) := by
  unfold HasRoom
  refine ⟨?_, ?_, ?_, ?_, ?_, ?_⟩
  all_goals decide +kernel

/-- As soon as possible, late (AF = 1 at tick 0), and exactly at tick + 2, which is not late; a frame that 256 commands
hold. -/
theorem witness_DecidedFrameIsTheEarliest :
    (let e := envOf {} State.reset;
      (swapMembers (groupsAt rst (e.fn + BitVec.ofNat 32 2)) (asap []) 1).1 = []
      ∧ earlier (1 : BitVec 32) (e.fn + 2) = true ∧ earlier (2 : BitVec 32) (e.fn + 2) = false
      ∧ frameFree (inCmd (fun k => { k with queue := List.replicate 256 (waiting 1 2) }) rst) false (e.fn + 2) = false
      ∧ stageWork rst (asap []) 0x101 ≠ 0)
    ∧ rst.cmd.queue.length + (rst.cmd.queue.map (fun p => p.members.length)).sum < 2 ^ 32 := by decide +kernel

theorem witness_CommandsOfOneFrameApplyInOrder :
    let d := inCmd (fun k => { k with queue := [waiting 1 0, waiting 2 0] }) rst;
    let e := envOf {} State.reset;
    isDue (waiting 1 0) e.fn = true ∧ isDue (waiting 2 0) e.fn = true ∧ (waiting 1 0).uid ≠ (waiting 2 0).uid
      ∧ (applyDue (waiting 1 0) e d).cmd.queue.find? (fun r => r.uid = (waiting 2 0).uid) = some (waiting 2 0) := by
  decide +kernel

/-- A RENDER_STOP before it takes a later command of the queue away, so that the second clause's case occurs too. -/
theorem witness_CommandOfTheFrameMayBeTaken :
    let q := { waiting 2 0 with members := [{ idx := 0, af := 1 }, { idx := 1, af := 0 }] };
    let p := { waiting 1 0 with opcode := 4 };
    let d := inPwr (fun w => { w with rendering := true }) (inCmd (fun k => { k with queue := [p, q] }) rst);
    let e := envOf {} State.reset;
    isDue p e.fn = true ∧ isDue q e.fn = true ∧ (applyDue p e d).cmd.queue.find? (fun r => r.uid = q.uid) = none := by
  decide +kernel

/-- A FENCE before its frame, one that an earlier command holds, one that is due. -/
theorem witness_FenceCompletesAfterEarlierCommands :
    let p := { waiting 7 0 with opcode := 2 };
    let q := { p with applied := true };
    let on := fun (l : List Pend) => inCmd (fun k => { k with queue := l, fence := some 7 }) rst;
    ((on [p]).cmd.queue = [] ++ p :: [] ∧ (on [p]).cmd.fence = some p.uid ∧ p.applied = false)
    ∧ ((on [waiting 1 0, q]).cmd.queue = [waiting 1 0] ++ q :: [] ∧ (waiting 1 0).uid ≠ q.uid)
    ∧ ((on [q, waiting 8 9]).cmd.queue = [] ++ q :: [waiting 8 9] ∧ q.applied = true ∧ q.silent = false) := by decide

/-! ### Commands at their decided AF -/

def cmdP (op : Nat) (args : List (Nat × Byte)) (operand : Option (List Byte)) : Pend :=
  { uid := 1, opcode := op, d := { args := bytes 32 args }, ridx := 0, af := 0, operand := operand }
def rendering (d : Device) : Device := inPwr (fun w => { w with rendering := true }) d
def driven (d : Device) : Device := inImg (fun i => i) (modPch 15 (fun p => { p with st := .play }) d)
def env0 : Env := envOf {} State.reset
/-- The ring entry of `r` in host memory, with the table at address 0. -/
def entryMem (r : Nat) (flags : Byte) : Env :=
  envOf {} { State.reset with hostMem := [(64 * r + 8, 16), (64 * r + 12, flags)] }

/-- Nothing renders and no bridge is audible; rendering; a stop under way; a driven channel. Ring 4: the read fails, a bad
entry (SIZE 0), a good one, a stop. Core 5 in each state that the clauses name. -/
theorem witness_SystemCommandsActAtTheirFrame :
    rst.pwr.rendering = false ∧ (∀ r < 8, (ainMedAt rst r).bridge.audible = false)
    ∧ (let d := rendering rst; d.pwr.rendering = true ∧ d.pwr.stopAt = none ∧ (List.range 16).any (pchActive d) = false)
    ∧ (let d := inPwr (fun w => { w with stopAt := some 3 }) (rendering rst); d.pwr.stopAt ≠ none)
    ∧ (let d := driven (rendering rst); d.pwr.rendering = true ∧ (List.range 16).any (pchActive d) = true)
    ∧ ringEntry 4 env0 rst = none
    ∧ ((ringEntry 4 (entryMem 4 1) (engine rst)).map (fun b => (bit (fld b 0xC 1) 0, ringBad (engine rst) 4 b)) = some (true, false))
    ∧ ((ringEntry 4 (entryMem 5 1) (engine rst)).map (fun b => bit (fld b 0xC 1) 0) = some false)
    ∧ ((ringEntry 4 (envOf {} { State.reset with hostMem := [(268, 1)] }) (engine rst)).map
        (fun b => (bit (fld b 0xC 1) 0, ringBad (engine rst) 4 b)) = some (true, true))
    ∧ ((cmdP 6 [(0, 5)] none).opcode = 6 ∧ (cslotAt (setCoreSt 5 .spare 0 env0 rst) 5).st = .spare)
    ∧ (∀ x ∈ [CoreSt.leaving, CoreSt.offline, CoreSt.joining], (cslotAt (setCoreSt 5 x 0 env0 rst) 5).st = x)
    ∧ rst.disp.orphans = [] ∧ (3 : Nat) < 4 := by decide +kernel

/-- An empty operand of DIRTAB_LOAD: gains of 0. -/
theorem empty_gains : ((entries 8 4096 []).map gainRule).all (· = 0) = true := by
  have h : ∀ i, sub [] i 8 = sub [] 0 8 := fun _ => rfl
  have h0 : gainRule (sub [] 0 8) = 0 := by decide
  refine List.all_eq_true.mpr (fun x hx => ?_)
  obtain ⟨y, hy, rfl⟩ := List.mem_map.mp hx
  obtain ⟨i, -, rfl⟩ := List.mem_map.mp hy
  rw [h, h0]
  rfl

/-- An entry of the triangle table that is valid and names speakers that do not exist. -/
def badTri : Device := { rst with geo := { rst.geo with tri := [(5, triEntry (List.replicate 96 255))] } }

/-- An object with another source and with its own; SEL 0x1F and SEL 0; entries that break no rule (`empty_gains` too) and
one that does; a staged copy without a fault and one with a fault in a kept entry; the last column of the table and its
neighbour; outputs 0 to N_OUT − 1 of DIRECT_LOAD. -/
theorem witness_ObjectAndTableCommandsActAtTheirFrame :
    (objAt rst 0).params.mdSrc = .command
    ∧ (objAt (modObj 0 (fun x => { x with params := { x.params with mdSrc := .stream } }) rst) 0).params.mdSrc ≠ .command
    ∧ (let c := (cmdP 0x100 [(2, 0x1F), (3, 1)] none).d;
        let d := inImg (fun i => { small i with objLaws := [1] }) rst;
        argN c 0x22 1 = 0x1F ∧ lawOf (argN c 0x23 1) = some .dist ∧ lawAllowed d 0 .dist = true ∧ f36Ok c.args 0x18 = true)
    ∧ (bit 0 0 = false ∧ bit 0 4 = false)
    ∧ ((entries 64 1 (zeros 64)).map spkRule).all (· = 0) = true
    ∧ firstRule 0 ((entries 64 1 ((zeros 0x18) ++ List.replicate 40 255)).map spkRule) ≠ none
    ∧ (((entries 96 1 (zeros 96)).map (triRule rst)).all (· = 0) = true ∧ triStaged 0 1 (zeros 96) rst = none)
    ∧ (triStaged 0 1 (List.replicate 96 255) rst).map (·.1) = some 0
    ∧ (triStaged 0 1 (zeros 96) badTri).map (·.1) = some 5
    ∧ (spkEntry (zeros 64)).laws.getLsbD 3 = false
    ∧ firstRule 0 ((entries 8 4096 (List.replicate 8 255)).map gainRule) ≠ none
    ∧ ((entries 16 (nOut rst) []).map gainRule).all (· = 0) = true ∧ nOut rst ≤ 512 := by decide +kernel

/-- GAIN_RAMP of output 0 at 1, 600, 0 and 601; MUTE 0, 1, 2 and −1; MD_SRC from command to stream; a set of no sections. -/
theorem witness_ParameterCommandsActAtTheirFrame :
    (∀ x ∈ [((1 : Byte), (0 : Byte), (1 : Int)), (0x58, 2, 600), (0, 0, 0), (0x59, 2, 601)],
      let c := (cmdP 0x200 [(0, 2), (1, 3), (8, x.1), (9, x.2.1)] none).d;
      argN c 0x20 1 = 2 ∧ argN c 0x21 1 = 3 ∧ argN c 0x22 1 = 0 ∧ argN c 0x23 1 = 0 ∧ sext 64 (argN c 0x28 8) = x.2.2)
    ∧ (sext 64 (argN (cmdP 0x200 ((List.range 8).map (fun i => (8 + i, 255))) none).d 0x28 8) = -1)
    ∧ (objAt rst 0).params.mdSrc ≠ .stream
    ∧ (applyCmd (cmdP 0x200 [(0, 2), (1, 2), (8, 2)] none) none env0 rst).status = some 0x0103
    ∧ (∀ m ∈ [0, 1, 2], argN (cmdP 0x201 [(1, BitVec.ofNat 8 m)] none).d 0x21 1 = m)
    ∧ (let p := { cmdP 0x202 [(0, 1)] none with members := [{ idx := 0, af := 0 }] };
        argN p.d 0x20 1 = 1 ∧ argN p.d 0x21 1 = 0 ∧ p.members = [{ idx := argN p.d 0x22 2, af := env0.fn }]
        ∧ (outStat (cfg (inImg (fun i => { small i with outs := [{}] }) rst)) 0).biqMax ≠ 0
        ∧ p.bad = none ∧ ({ p with bad := some (0, 6) } : Pend).bad = some (0, 6)) := by decide +kernel

def oneOut : Device := inImg small rst
def driving (d : Device) : Device :=
  modPch 0 (fun p => { p with st := .play }) (inPwr (fun w => { w with spoke := true }) (inImg (fun i => { i with pchOut := [0] }) d))

/-- Destinations 0 and 0x8000, and 1, which is none; source 0 and 0x7000, which is unknown; the gain 0 and a negative one.
Slot 0 off; too many channels; sinks free, held and refused; a chain at rest and one that serves a driven channel. -/
theorem witness_RoutingCommandsActAtTheirFrame :
    (destRoute oneOut 0 ≠ none ∧ destRoute oneOut 0x8000 ≠ none ∧ destRoute oneOut 1 = none)
    ∧ (sourceOk oneOut 0 = true ∧ sourceOk oneOut 0x7000 = false ∧ flt (0 : F36) 0 = false ∧ flt (fint (-1)) 0 = true)
    ∧ ((slotAt rst 0).format = 0 ∧ rxTotal (mset {} rst.inp.rx 0 (slotAt rst 0)) ≤ 4096)
    ∧ (applyCmd (cmdP 0x301 [(1, 1), (4, 1)] none) none env0 oneOut).status = some 0
    ∧ (let tx := mset {} rst.eth.tx 0 { format := 1, paths := 3, ch := 2, first := 0 };
        txTotal tx ≤ 2048 ∧ loadFits rst 0 tx = true ∧ loadFits rst 1 tx = true)
    ∧ 2048 < txTotal [(0, { format := 1, paths := 1, ch := 2049, first := 0 })]
    ∧ (let a : SinkAsg := { out := 0, kind := 1, sink := 15, chan := 0 };
        sinkErr oneOut 1 (sinkCount oneOut 1 15) [] true a = 0 ∧ a ∉ oneOut.chn.sinks
        ∧ sinkErr oneOut 1 (sinkCount oneOut 1 15) [a] true a = 0 ∧ sinkErr oneOut 1 (sinkCount oneOut 1 15) [a] false a = 0
        ∧ sinkErr oneOut 1 (sinkCount oneOut 1 16) [] true { a with sink := 16 } ≠ 0)
    ∧ (decConsistent (cfg rst).fs96 (decAt rst 39) = true ∧ chainBusy rst 39 = false)
    ∧ decConsistent (cfg rst).fs96 { cicDec := some 3 } = false
    ∧ chainBusy (driving rst) 0 = true := by decide +kernel

/-- The quiet state; a sample exactly 2^30 ns old and one older; an offset one below STEP_THR × 65,536 while rendering, and
at it while nothing renders; the epoch with and without a wrap; the reference in use and each other one. -/
theorem witness_ClockCommandsActAtTheirFrame :
    (inPwr (fun w => { w with quiet := true }) rst).pwr.quiet = true ∧ rst.pwr.quiet = false
    ∧ ¬((timeNs rst - ((timeNs rst) - 0x40000000)).toNat > 2 ^ 30) ∧ (timeNs rst - ((timeNs rst) - 0x40000001)).toNat > 2 ^ 30
    ∧ rst.clk.lastMeas = none ∧ (∃ m, (inClk (fun k => { k with lastMeas := some 5 }) rst).clk.lastMeas = some m ∧ earlier 4 m = true)
    ∧ (((rst.clk.stepThr * 65536 - 1 : Nat) : Int).natAbs < rst.clk.stepThr * 65536)
    ∧ (rst.clk.stepThr * 65536 ≤ ((rst.clk.stepThr * 65536 : Nat) : Int).natAbs ∧ rst.pwr.rendering = false)
    ∧ (¬((timeNs rst).toNat < nth 0 [(timeNs rst).toNat] 0) ∧ (timeNs rst).toNat < nth 0 [(timeNs rst).toNat + 1] 0)
    ∧ (∀ r ∈ [0, 1, 2, 3], (rst.clk.ref = r ∨ rst.clk.ref ≠ r)) ∧ rst.clk.ref ≤ 3 := by
  refine ⟨by decide, by decide, by decide, by decide, by decide, ⟨5, by decide, by decide⟩, ?_⟩
  decide

/-! ### Clocks, registers, image load, reset -/

theorem witness_ClockReturnsToLockedStepByStep :
    let at_ := fun (n frames : Nat) (on : Bool) => (inClk (fun k => { k with step := n, stepFrames := frames, tickOn := on }) rst).clk;
    ((at_ 1 rst.clk.refQual false).step = 1 ∧ (at_ 1 rst.clk.refQual false).refQual ≤ (at_ 1 rst.clk.refQual false).stepFrames)
    ∧ (at_ 1 (rst.clk.refQual - 1) false).stepFrames < (at_ 1 (rst.clk.refQual - 1) false).refQual
    ∧ ((at_ 4 60 true).tickOn = true ∧ 60 ≤ (at_ 4 60 true).stepFrames) ∧ (at_ 4 0 false).tickOn = false
    ∧ ((at_ 4 59 true).tickOn = true ∧ (at_ 4 59 true).stepFrames < 60)
    ∧ (300 ≤ (at_ 3 300 true).stepFrames ∧ (at_ 3 299 true).stepFrames < 300)
    ∧ ((at_ 3 0 false).failures < 2 ∧ 2 ≤ (inClk (fun k => { k with failures := 2 }) rst).clk.failures)
    ∧ (∀ r ∈ [0, 1, 2, 3], let k := (inClk (fun k =>
          { k with st := .holdover, step := 0, failures := 3, ref := r, tickOn := true, stepFrames := 6000 }) rst).clk;
        k.st = .holdover ∧ k.step = 0 ∧ 3 ≤ k.failures ∧ 6000 ≤ k.stepFrames ∧ k.ref = r)
    ∧ rst.alive = true := by decide

theorem witness_ClockEventsActAsTheirRulesSay :
    (clear rst).pwr.sramClear = true ∧ (∀ x ∈ [(1, 1), (1, 3), (2, 4), (0, 5), (3, 5)], let k := (inClk (fun k => { k with st := .locked, ref := x.1 }) rst).clk;
      k.st = .locked ∧ (x.2 = 5 ∨ (k.ref = 1 ∧ 1 ≤ x.2 ∧ x.2 ≤ 3) ∨ (k.ref = 2 ∧ x.2 = 4)))
    ∧ rst.evt.store.length < 250
    ∧ (∀ n ∈ [1, 2], let k := (inClk (fun k => { k with st := .acquire, ref := 2, step := n }) rst).clk;
      k.st ≠ .locked ∧ k.ref = 2 ∧ 1 ≤ k.step)
    ∧ (∀ r ∈ [0, 3], (inClk (fun k => { k with ref := r }) rst).clk.ref ≠ 1)
    ∧ ((inClk (fun k => { k with sinceSample := k.timeout }) rst).clk.timeout ≤ rst.clk.timeout ∧ rst.clk.sinceSample < rst.clk.timeout)
    ∧ (let k := (inClk (fun k => { k with wrapped := true, epochValid := true }) rst).clk; k.wrapped = true ∧ k.epochValid = true)
    ∧ ((inClk (fun k => { k with wrapped := true }) rst).clk.epochValid = false ∧ rst.clk.wrapped = false) := by decide

/-- Seven and eight submissions wait; the quiet state; CREF with bit 31 and without. -/
theorem witness_RegisterFormsWaitEightDeep :
    let rst := clear rst;
    rst.alive = true ∧ rst.pwr.sramClear = true ∧ (∀ n ∈ [7, 8], let k := (inCmd (fun k =>
          { k with srv := List.replicate n {}, ep := List.replicate n {}, cref := List.replicate n {} }) rst).cmd;
        k.srv.length = n ∧ k.ep.length = n ∧ k.cref.length = n)
    ∧ rst.pwr.quiet = false ∧ (0x80000003 : BitVec 32).getLsbD 31 = true ∧ (3 : BitVec 32).getLsbD 31 = false := by decide

theorem witness_ResetRequestsAreNotedWithTheirCause :
    let rst := clear rst;
    (paired rst = false ∧ rst.alive = true ∧ rst.pwr.sramClear = true ∧ (0x5C5D : BitVec 32) ≠ 0x5C5C#32 ∧ (0xD00E : BitVec 32) ≠ 0xD00D#32)
    ∧ (let d := activeHub rst; paired d = true ∧ d.pwr.spoke = false ∧ isActive d.pair = true ∧ d.pair.delayed = none)
    ∧ (let d := inRing (fun r => { r with go := true, hbAge := 60000 }) rst;
        d.ring.go = true ∧ d.pwr.hbWdEn = true ∧ 60000 ≤ d.ring.hbAge ∧ d.pwr.quiet = false ∧ d.pwr.wdAsked = false)
    ∧ rst.ring.hbAge < 60000 := by decide

theorem witness_LimitUnlockOpensOnTwoWrites :
    (clear rst).alive = true ∧ (clear rst).pwr.sramClear = true ∧ let j := fun (u a : Bool) (n : Nat) => { rst.jrn with unlocked := u, armed := a, openFor := n };
    ((j true false 600).unlocked = true ∧ (j true false 0).openFor = 0)
    ∧ ((j false true 0).armed = true ∧ (0x5AA4 : BitVec 32) ≠ 0x5AA5#32)
    ∧ ((j false false 0).unlocked = false ∧ (0x5AA5 : BitVec 32) ≠ 0xA55A#32) ∧ (j true false 1).openFor ≠ 0 := by decide

theorem witness_QuietStateIsEnteredAndLeft :
    let rst := clear rst;
    rst.alive = true ∧ rst.pwr.sramClear = true ∧ (rst.pwr.quiet = false ∧ rst.pwr.rendering = false ∧ (List.range 16).any (pchActive rst) = false)
    ∧ (rendering rst).pwr.rendering = true ∧ (List.range 16).any (pchActive (driven rst)) = true
    ∧ (inPwr (fun w => { w with quiet := true }) rst).pwr.quiet = true := by decide

theorem witness_MdioFramesRunOneAtATime :
    let rst := clear rst;
    rst.alive = true ∧ rst.pwr.sramClear = true ∧ rst.eth.mdioBusy = false ∧ ({ rst.eth with mdioBusy := true, mdioRead := true } : EthState).mdioBusy = true := by decide

def le (n v : Nat) : List Byte := leBytes n v
/-- The smallest image of a hub without a partner: 64 objects that use no law, one output; six sections of 64 bytes. -/
def body0 : List Byte :=
  let dir := fun (t off len : Nat) => le 2 t ++ zeros 2 ++ le 4 off ++ le 4 len ++ zeros 4
  le 4 0x4D49584F ++ le 2 1 ++ [1, 6] ++ le 4 576 ++ zeros 4 ++ le 8 7 ++ zeros 40
    ++ dir 1 0xC0 64 ++ dir 3 0x100 64 ++ dir 4 0x140 8 ++ dir 5 0x180 40 ++ dir 6 0x1C0 13 ++ dir 7 0x200 64 ++ zeros 32
    ++ [0, 0] ++ le 2 64 ++ le 2 1 ++ le 2 1 ++ le 2 1 ++ zeros 30 ++ le 4 16384 ++ zeros 20
    ++ zeros 128 ++ [0, 0, 1, 0, 3] ++ zeros 27 ++ le 4 0x420000 ++ zeros 28
    ++ List.replicate 13 (3 : Byte) ++ zeros 51 ++ zeros 12 ++ le 2 1522 ++ zeros 14 ++ le 2 1522 ++ zeros 34
def image0 : List Byte := patch body0 0x3C (le 4 0x770CF718)
def imageMem : List Host.Cell := (image0.zipIdx.filter (fun p => p.1 ≠ 0)).map (fun p => (p.2, p.1))
/-- The image stands at host address 0 and is being loaded; `det` is what the channels were found to have. -/
def loading (det : Nat) : State :=
  { st (fun d => { modDch 0 (fun c => { c with det := det }) (modDch 1 (fun c => { c with det := det }) (engine d)) with
      img := { d.img with st := 1, len := 576, imgId := 7 } }) with hostMem := imageMem }

/-- The CRC register after a list of bytes, each byte's value known before the next. -/
def crcRun (c : BitVec 32) : List Byte → BitVec 32
  | [] => c
  | b :: r => if (crc32Byte c b).toNat = 0 then crcRun 0 r else crcRun (crc32Byte c b) r
theorem crcRun_eq (l : List Byte) : ∀ c, crcRun c l = l.foldl crc32Byte c := by
  induction l with
  | nil => intro c; rfl
  | cons b r ih =>
    intro c
    rw [crcRun, ih, ih]
    split
    · rename_i h; rw [List.foldl_cons, show crc32Byte c b = 0 from BitVec.eq_of_toNat_eq (by simpa using h)]
    · rfl
theorem body0_run : ~~~(crcRun 0xFFFFFFFF#32 body0) = 0x770CF718 := by decide +kernel
theorem body0_crc : crc32 body0 = 0x770CF718 := by rw [crc32, ← crcRun_eq, body0_run]

theorem image0_heads : firstBad (headerChecks image0 576 false ++ directoryChecks image0 576 false) = none := by
  have h : (crc32 (patch image0 0x3C (zeros 4))).toNat = fld image0 0x3C 4 := by
    rw [show patch image0 0x3C (zeros 4) = body0 by decide +kernel, body0_crc]; decide +kernel
  simp only [headerChecks, List.cons_append, List.nil_append, firstBad, h, decide_true, if_true]
  decide +kernel

theorem firstBad_append {l m : List FieldCheck} (hl : firstBad l = none) (hm : firstBad m = none) :
    firstBad (l ++ m) = none := by
  induction l with
  | nil => exact hm
  | cons x r ih => obtain ⟨ok, y⟩ := x; cases ok <;> simp_all [firstBad]

theorem builtin_of (i : Image) (hp : i.pairId = 0) (ho : i.outs.any (fun o => decide (o.convMax > 0)) = false) :
    builtinArea i false = Config.builtinWords i.nObj i.nOut := by
  simp only [builtinArea, hp, ho]; simp

/-- Every check of the sections but the size of the built-in areas, a free value, passes. -/
theorem image0_sections (h : Config.builtinWords 64 1 ≤ 0x100000) : firstBad (sectionChecks (loading 0).dev image0) = none := by
  have ha := builtin_of (parseImage image0 false) (by decide +kernel) (by decide +kernel)
  rw [show (parseImage image0 false).nObj = 64 by decide +kernel,
    show (parseImage image0 false).nOut = 1 by decide +kernel] at ha
  refine firstBad_append (by decide +kernel) ?_
  have hs : (parseImage image0 false).areas = [] := by decide +kernel
  show firstBad (areaChecks _ (parseImage image0 false)) = none
  simp [areaChecks, firstBad, ha, h, hs]

/-- A load that can begin, one that each condition refuses, one whose read fails; a bad header; the DRAM of the image not
found (sections); no core left (budget), and a good image, where the built-in areas fit. -/
theorem witness_ImageLoadEndsLoadedOrRefused :
    rst.img.st ≠ 1 ∧ loadRefusal rst ≠ 0 ∧ loadRefusal (rendering rst) = 0x010A
    ∧ (loading 0).dev.img.st = 1 ∧ (loading 0).dev.alive = true ∧ (clear rst).pwr.sramClear = true
    ∧ dmaRead (envOf {} (loading 0)) (loading 0).dev 0 576 = some image0
    ∧ dmaRead (envOf { fails := [(0, 1)] } (loading 0)) (loading 0).dev 0 576 = none
    ∧ firstBad (headerChecks (zeros 128) 128 false) ≠ none
    ∧ firstBad (sectionChecks (loading 1).dev image0) ≠ none
    ∧ (imageCheck (loading 0).dev (parseImage image0 false)).fail = none
    ∧ (imageCheck (forAll (List.range 64) (fun c d => modCslot c (fun k => { k with unrepaired := true }) d) (loading 0).dev)
        (parseImage image0 false)).fail ≠ none := by
  refine ⟨?_, ?_, ?_, ?_, ?_, ?_, ?_, ?_, ?_, ?_, ?_, ?_⟩
  all_goals decide +kernel

theorem witness_SuppliesAndResetPinHoldTheDevice :
    rst.pwr.powered = true ∧ (inPwr (fun w => { w with powered := false }) rst).pwr.powered = false ∧ rst.pwr.resetN = true
    ∧ (inPwr (fun w => { w with resetN := false }) rst).pwr.resetN = false
    ∧ (let p := (inPwr (fun w => { w with resetN := false, inReset := true, nextCause := 1 }) rst).pwr;
        p.powered = true ∧ p.inReset = true ∧ p.nextCause = 1#7 ∧ committedRole rst = 0)
    ∧ rst.pwr.nextCause ≠ 1#7
    ∧ (inPwr (fun w => { w with powered := false }) rst).alive = false ∧ ¬reachesReset .flr := by
  refine ⟨by decide, by decide, by decide, by decide, by decide, by decide, by decide, fun h => h⟩

theorem witness_WarmResetKeepsWhatItsTableNames :
    let ask := fun (c : BitVec 7) => inPwr (fun w => { w with nextCause := c }) rst;
    ((ask 4).alive = true ∧ (ask 4).pwr.nextCause ≠ 0 ∧ (ask 4).pair.delayed = none ∧ (ask 4).xbar.serving = []
      ∧ ∀ c < 64, (coreAt (ask 4) c).xfers = [] ∧ (coreAt (ask 4) c).sxfers = [] ∧ (coreAt (ask 4) c).dead = [])
    ∧ (let d := inPair (fun p => { p with delayed := some (2, 1) }) (ask 2); d.pair.delayed ≠ none ∧ d.pwr.nextCause &&& 0x32#7 ≠ 0)
    ∧ (let d := inPair (fun p => { p with delayed := some (2, 1) }) (ask 4); d.pair.delayed ≠ none ∧ d.pwr.nextCause &&& 0x32#7 = 0)
    ∧ (∀ c ∈ [4#7, 16#7], let p := (inPwr (fun w => { w with nextCause := c, inReset := true, sramClear := true }) rst).pwr;
        p.powered = true ∧ p.inReset = true ∧ p.resetN = true ∧ p.thermalHold = false ∧ p.pllHold = false
        ∧ p.cycleHold = false ∧ p.nextCause ≠ 1#7 ∧ p.sramClear = true)
    ∧ rst.pwr.inReset = false := by decide

theorem witness_TemperatureAndClockFaultsResetTheDevice :
    (rst.alive = true ∧ rst.pair.thermalNow = false ∧ rst.pwr.thermalHold = false ∧ (1680 : Int) ≤ 1680 ∧ (1679 : Int) < 1680)
    ∧ (inPair (fun p => { p with thermalNow := true }) rst).pair.thermalNow = true
    ∧ (∀ b, (inClk (fun k => { k with sysLocked := b }) rst).clk.sysLocked = b)
    ∧ (let p := (inPwr (fun w => { w with wdAsked := true }) rst).pwr; p.cycleReq = false ∧ p.wdAsked = true)
    ∧ (rst.pwr.sramClear = false ∧ (clear rst).pwr.sramClear = true) ∧ rst.pwr.wdAsked = false ∧ rst.pwr.hostAsked = false
    ∧ (let d := modPch 15 (fun p => p) (inPwr (fun w => { w with spoke := true }) (inImg (fun i => { i with pchOut := zeros 16 |>.map (·.toNat) }) rst));
      d.pwr.spoke = true ∧ pchConfigured d 15 = true) := by decide +kernel

/-! ### Ethernet -/

def linked (p : Nat) (f : Port → Port) (d : Device) : Device := modPort p (fun q => f { q with link := true, mac := 0x0A }) d
def toMac : List Byte := [0x0A, 0, 0, 0, 0, 0]
def etherFrame (et : List Byte) (rest : List Byte) : List Byte := toMac ++ zeros 6 ++ et ++ rest
/-- An AAF packet of one 32-bit sample of stream 5 at 96 kHz. -/
def aaf (seq : Byte) (tv : Byte) : List Byte :=
  etherFrame [0x22, 0xF0] ([2, 0x80 + tv, seq, 0, 0, 0, 0, 0, 0, 0, 0, 5, 0, 0, 0, 0, 2, 0x70, 1, 32, 0, 4, 0, 0] ++ zeros 26)
def aafSlot : RxSlot := { format := 1, paths := 1, ch := 1, streamId := 5 }
def inSlot (x : RxSlot) (d : Device) : Device := { d with inp := { d.inp with rx := mset {} d.inp.rx 7 x } }
def held (p : Nat) (d : Device) : Device := modPort p (fun q => { q with streamNow := some 7 }) d

/-- An address that is not the port's, then each destination in turn; a port that does not exist; the link down. -/
theorem witness_ReceivedFrameIsSteered :
    ((portAt (linked 0 id rst) 0).link = true ∧ ¬((zeros 6).take 6 = macBytes (portAt (linked 0 id rst) 0).mac
      ∨ daClass (zeros 6) ≠ 0 ∨ (portAt (linked 0 id rst) 0).promisc = true))
    ∧ ((portAt (linked 2 id rst) 2).link = true ∧ (aaf 0 1).take 6 = macBytes (portAt (linked 2 id rst) 2).mac)
    ∧ etherType (etherFrame [0x88, 0x08] []) = 0x8808
    ∧ (((inSlot aafSlot rst).inp.rx.find? (fun x => slotMatch 0 x.2 (aaf 0 1))).map (·.1) = some 7)
    ∧ (etherType (aaf 0 1) ≠ 0x8808 ∧ rst.inp.rx.find? (fun x => slotMatch 0 x.2 (aaf 0 1)) = none)
    ∧ (portAt rst 3).rules.find? (fun x => ruleMatch x.2 (aaf 0 1)) = none ∧ (portAt rst 0).link = false := by decide

/-- Lengths 63, 64, the largest and one more; each destination. -/
theorem witness_ReceivedFrameIsChecked :
    ((zeros 59).length + 4 < 64 ∧ 64 ≤ (zeros 60).length + 4 ∧ (zeros 60).length + 4 ≤ maxFrame rst 3 ∧ 1522 = maxFrame rst 3)
    ∧ (portAt (linked 0 id rst) 0).rxNow = none
    ∧ (∀ x ∈ [RxDest.daDrop, .drop, .control, .drawbar, .stream 7, .queue 0 255],
        (portAt (linked 0 (fun q => { q with rxNow := some (x, 9, true) }) rst) 0).rxNow = some (x, 9, true)) := by decide

theorem witness_PortEventsActAsTheirRulesSay :
    (clear rst).pwr.sramClear = true ∧ ((portAt rst 3).tsq = [] ∧ (portAt rst 3).link = false ∧ rst.pwr.quiet = false ∧ (portAt rst 3).resetting = none)
    ∧ (portAt (linked 3 id rst) 3).link = true
    ∧ (∀ n ∈ [599, 600], (portAt (modPort 3 (fun q => { q with resetting := some (1, n) }) rst) 3).resetting = some (1, n))
    ∧ (let f := etherFrame [0x88, 0x08] [0, 1, 0, 5]; let q := portAt (linked 3 (fun q => { q with pauseEn := true }) rst) 3;
      etherType f = 0x8808 ∧ bfld f (l3Off f) 2 = 1 ∧ f.take 6 = macBytes q.mac ∧ q.pauseEn = true)
    ∧ (let f := etherFrame [0x88, 0x08] [1, 1, 0, 5]; etherType f = 0x8808 ∧ bfld f (l3Off f) 2 ≠ 1) := by decide

theorem witness_PortSendsMediaBeforeHostFrames :
    (let q := portAt (linked 3 (fun q => { q with media := [[1]] }) rst) 3;
      q.txNow = none ∧ q.paused = false ∧ q.lpi = 0 ∧ q.media = [1] :: [] ∧ q.link = true)
    ∧ (let q := portAt (modPort 3 (fun q => { q with media := [[1]] }) rst) 3; q.link = false ∧ q.media = [1] :: [])
    ∧ ((portAt rst 3).media = [] ∧ (ntxNext 3 env0 [7, 6, 5, 4, 3, 2, 1, 0] rst).2 = none)
    ∧ (let e := envOf {} { State.reset with hostMem := [(8, 60), (10, 3)] };
      (ntxNext 3 e [7, 6, 5, 4, 3, 2, 1, 0] (ringUp 120 { hidx := 1 } rst)).2.isSome = true)
    ∧ (∀ n ∈ [1, 2, 3], (portAt (modPort 3 (fun q => { q with lpi := n }) rst) 3).lpi = n)
    ∧ txReady 3 env0 (modPort 3 (fun q => { q with media := [[1]] }) rst) = true ∧ txReady 3 env0 rst = false := by decide +kernel

def txHost (fl : Byte) : TxHostFrame :=
  { queue := 0, bytes := etherFrame [0x88, 0xF7] (0 :: 2 :: zeros 44), flags := fl, ptpOfs := 14, udpOfs := 0, htag := 9, last := 0, span := 1 }
/-- Nothing sent, a media frame, host frames without a request, with ONE_STEP granted and refused, with TWO_STEP. -/
theorem witness_DepartingFrameIsCountedAndStamped :
    (portAt rst 3).txNow = none
    ∧ (portAt (modPort 3 (fun q => { q with txNow := some ([1], none) }) rst) 3).txNow = some ([1], none)
    ∧ (∀ fl ∈ [(0 : Byte), 4, 8], (portAt (modPort 3 (fun q => { q with txNow := some ((txHost fl).bytes, some (txHost fl)) }) rst) 3).txNow
        = some ((txHost fl).bytes, some (txHost fl)))
    ∧ (txHost 0).flags.getLsbD 2 = false ∧ (txHost 4).flags.getLsbD 2 = true ∧ (txHost 8).flags.getLsbD 3 = true
    ∧ (oneStepReason rst (txHost 4) ≠ 0
      ∧ oneStepReason (inClk (fun k => { k with st := .locked, epochValid := true, servo := .locked }) rst) (txHost 4) = 0) := by
  decide +kernel

theorem witness_LowPowerIdleAndObjectAudioFollowTheirSources :
    (let d := linked 3 (fun q => { q with eeeEn := true }) rst; let q := portAt d 3;
      q.eeeEn = true ∧ q.link = true ∧ q.lpi = 0 ∧ q.txNow = none ∧ txReady 3 env0 d = false)
    ∧ (portAt rst 3).eeeEn = false
    ∧ (let q := portAt (modPort 3 (fun q => { q with lpi := 2, paused := true }) rst) 3; q.lpi = 2 ∧ q.paused = true)
    ∧ (let q := portAt (modPort 3 (fun q => { q with lpi := 2 }) rst) 3; q.lpi = 2 ∧ q.paused = false ∧ q.txNow = none)
    ∧ (let d : Device := { rst with eth := { rst.eth with tx1 := [(127, { format := 4, paths := 3, ch := 1, first := 0 })] } };
      let x : TxSlot := mget {} d.eth.tx1 127;
      d.pwr.spoke = false ∧ x.format = 4 ∧ 127 ∉ d.eth.queued ∧ d.pwr.rendering = false)
    ∧ (mget ({} : TxSlot) rst.eth.tx1 127).format ≠ 4 := by decide +kernel

/-- Nothing held; a packet of another stream; version 1; a repeated sequence number; a timed packet; an untimed one that
continues and one that does not. -/
theorem witness_AafPacketFillsTheSlotsFrames :
    (portAt rst 0).streamNow = none
    ∧ (portAt (held 0 (inSlot aafSlot rst)) 0).streamNow = some 7
    ∧ (slotAt (held 0 (inSlot aafSlot rst)) 7 = aafSlot ∧ slotMatch 0 aafSlot (aaf 0 1) = true
      ∧ slotMatch 0 { aafSlot with streamId := 6 } (aaf 0 1) = false)
    ∧ (AafSound rst (aaf 0 1) aafSlot ∧ ¬AafSound rst (aaf 0 1) { aafSlot with hub := 1 })
    ∧ (takeSeq false 0 3 {} ≠ none ∧ takeSeq false 0 3 { taken0 := [3] } = none)
    ∧ ((nth 0 (aaf 0 1) (l3Off (aaf 0 1) + 1)).getLsbD 0 = true)
    ∧ ((some (2 : Byte)).map (· + 1) = some 3 ∧ (none : Option Byte).map (· + 1) ≠ some 3) := by
  refine ⟨by decide, by decide, by decide, ⟨?_, ?_⟩, by decide, by decide, by decide⟩
  · refine ⟨by decide, by decide, by decide, by decide, by decide, by decide, by decide, by decide, Or.inl (by decide), Or.inl (by decide)⟩
  · intro h; rcases h.2.2.2.2.2.2.2.2.2 with h | h
    · exact absurd h (by decide)
    · exact absurd h.2 (by decide)

/-- An RTP packet of no samples to port 0x1234 of 0.0.0.9, payload type 0, without a UDP checksum. -/
def rtpFrame (last : Byte) : List Byte :=
  etherFrame [0x08, 0x00] ([0x45, 0, 0, 40, 0, 0, 0, 0, 0, 17, 0xBA, 0xBD, 0, 0, 0, 0, 0, 0, 0, 9]
    ++ [0, 0, 0x12, 0x34, 0, 20, 0, 0] ++ [0x80, 0, 0, 0, 0, 0, 0, 0, 0, 0, 0, last])
def rtpSlot : RxSlot := { format := 2, paths := 1, ch := 1, streamId := 0x0000123400000009 }
/-- A metadata packet of one record. -/
def mdOf (vendor : List Byte) : List Byte :=
  etherFrame [0x22, 0xF0] ([0x6F, 0x81, 3, 0, 0, 0, 0, 0, 0, 0, 0, 5, 0, 0, 0, 0] ++ vendor ++ [0, 40] ++ zeros 8 ++ zeros 32)
def mdFrame : List Byte := mdOf (macBytes Config.vendor)
theorem md_vendor (n : Nat) : sub (mdOf (leBytes 6 n)) 30 6 = leBytes 6 n := rfl
def mdSlot : RxSlot := { format := 3, paths := 1, ch := 1, streamId := 5 }

theorem witness_RtpAndMetadataPacketsReachTheirSlots :
    (slotAt (held 0 (inSlot rtpSlot rst)) 7 = rtpSlot ∧ slotMatch 0 rtpSlot (rtpFrame 0) = true)
    ∧ (let f := rtpFrame 0; let o := l3Off f; let u := o + 20; let r := o + 28; let udp := bfld f (u + 4) 2; let b := fld f r 1;
      let pt := rtpSlot.streamId.toNat / pow2 48 % 256;
      let start := r + 12 + 4 * (b % 16) + (if bit b 4 then 4 + 4 * bfld f (r + 12 + 4 * (b % 16) + 2) 2 else 0);
      let stop := u + udp - (if bit b 5 then fld f (u + udp - 1) 1 else 0);
      fld f o 1 = 0x45 ∧ onesSum (sub f o 20) = 0xFFFF ∧ bfld f (o + 6) 2 % 16384 = 0
        ∧ o + bfld f (o + 2) 2 ≤ f.length ∧ udp + 20 ≤ bfld f (o + 2) 2 ∧ 20 ≤ udp ∧ bfld f (u + 6) 2 = 0
        ∧ b / 64 = 2 ∧ pt = 0 ∧ start ≤ stop ∧ (stop - start) % (3 * rtpSlot.ch) = 0)
    ∧ (slotMatch 0 mdSlot mdFrame = true ∧ hasHubObj rst = false)
    ∧ (let f := mdFrame; let o := l3Off f; let len := bfld f (o + 0x16) 2; let n := (len - 8) / 32;
      nth 0 f o = 0x6F ∧ fld f (o + 1) 1 / 16 % 8 = 0 ∧ (nth 0 f (o + 1)).getLsbD 0 = true
        ∧ len = 8 + 32 * n ∧ 1 ≤ n ∧ n ≤ 44 ∧ o + 0x18 + len ≤ f.length
        ∧ ((((List.range n).map (fun i => sub f (o + 0x20 + 32 * i) 32)).map recStamp).eraseDups).length = 1)
    ∧ (l3Off mdFrame + 0x10 = 30 ∧ sub mdFrame 30 6 = macBytes Config.vendor)
    ∧ (∃ q, takeSeq true 0 3 q = none) ∧ (∃ q st, takeSeq true 0 3 q = some st) := by
  refine ⟨by decide, by decide, by decide, by decide, ⟨by decide, md_vendor _⟩, ⟨{ taken0 := [3] }, by decide⟩, {}, _, rfl⟩

/-! ### AES3 ports and received sources -/

def inAin (r : Nat) (f : AinPort → AinPort) (d : Device) : Device := modAin r f d
def inMed (r : Nat) (f : AinMedia → AinMedia) (d : Device) : Device := modAinMed r f d

theorem witness_ReceiverLocksAndLosesItsSignal :
    ((ainAt rst 7).st = .acquire ∧ (6 : Nat) ≤ 6 ∧ 6 < 7)
    ∧ ((ainAt (inAin 7 (fun p => { p with st := .locked }) rst) 7).st = .locked ∧ (1 : Nat) ≤ 4 ∧ 4 < 5)
    ∧ (let m := ainMedAt rst 0; m.slip = false ∧ m.bridge.locked = false ∧ m.bridge.audible = false)
    ∧ (ainMedAt (inMed 0 (fun m => { m with slip := true }) rst) 0).slip = true
    ∧ (∀ x ∈ [(4, true), (2, false)], ainAtMediaRate (inAin 0 (fun p => { p with st := .locked, rate := x.1 }) rst) 0 = x.2) := by
  decide

/-- The 192nd frame, a block start, a frame outside any block. -/
theorem witness_ReceivedAesFrameIsTakenIn :
    ((ainAt (inAin 0 (fun p => { p with st := .locked, frames := 191 }) rst) 0).frames = 191)
    ∧ (ainAt rst 0).st ≠ .locked ∧ (ainAt rst 0).frames = 0
    ∧ ((ainMedAt (inMed 0 (fun m => { m with slip := true, buf := { m.buf with audible := true } }) rst) 0).slip = true)
    ∧ (ainMedAt rst 0).slip = false := by decide

theorem witness_TransmitterCommitsAtItsBlockStart :
    ((aoutAt (modAout 7 (fun p => { p with en := true }) rst) 7).en = true ∧ (aoutAt rst 7).en = false
      ∧ (aoutAt rst 7).resetRidx = none ∧ (aoutAt rst 7).reset = 0)
    ∧ (∀ n ∈ [0, 1, 2, 3], (aoutAt (modAout 7 (fun p => { p with en := true, reset := n, resetRidx := some 5 }) rst) 7).reset = n) := by
  decide

/-- The other hub of the pair owns source 0x2000. -/
def peerOwned (d : Device) : Device := { d with inp := { d.inp with ownerLive := [(0x2000, true)] } }
def mutedRing : AinRing := let c := mget {} ({} : AinRing).chans 0; { chans := mset {} [] 0 { c with live := false, streak := 1 } }
/-- A slot's channel with and without its REVIVE_FRAMES, of one hub or of the hub that supplies the source, and of the other;
a source that no slot maps; a ring's channel; an owner's frame that is missing, noted and not, and one that nothing routes. -/
theorem witness_SourcesReviveAndMissTheirOwner :
    (let d := { rst with inp := { rst.inp with rxLive := [(7, { format := 1, paths := 1, ch := 1, revive := 4 })] } };
      0x1000 / 4096 ≠ 4 ∧ ((rxMaps d.inp.rxLive).find? (fun x => x.key = 0x1000)).map (·.slot) = some 7
      ∧ (mget {} d.inp.rxLive 7).revive = 4
      ∧ (chanAt d 0x1000).streak < 4 ∧ 4 ≤ (chanAt (setChan 0x1000 { live := false, streak := 4 } d) 0x1000).streak
      ∧ (rxMaps d.inp.rxLive).find? (fun x => x.key = 0x1001) = none)
    ∧ (0x1000 / 65536 = 0 ∧ 0x21000 / 65536 ≠ 0 ∧ mget 0 rst.pair.supplier (0x21000 % 65536) ≠ 0x21000 / 65536)
    ∧ ((0x4000 : Nat) / 4096 = 4 ∧ (mget {} (mget ({} : AinRing) rst.ring.ain 0).chans 0).streak < ringRevive (ringAt rst 16)
      ∧ (mget {} mutedRing.chans 0).live = false ∧ ringRevive (ringAt rst 16) ≤ (mget {} mutedRing.chans 0).streak)
    ∧ (let d := peerOwned (modOut 0 (fun o => { o with route := { o.route with live := { src := 0x2000 } } }) (activeHub rst));
      paired d = true ∧ d.pwr.spoke = false ∧ ownsSealed d 0x2000 = false ∧ 0x2000 ∈ localSrcs ∧ srcRouted d 0x2000 = true
        ∧ (∀ f ∈ d.inp.ownerFrames, f.1 = 0x2000 → f.2.1 ≠ State.reset.fc.fn - 2) ∧ State.reset.fc.fn - 1 ∉ d.inp.nc)
    ∧ State.reset.fc.fn - 1 ∈ [State.reset.fc.fn - 1] ∧ paired rst = false := by decide

/-! ### Set-up registers and the crossbar -/

/-- Offsets at both ends of each range; sizes 4, 8 and others; STEP_THR at its bounds and beyond; the low half of a base
written as 0; an enabled rule; a pending commit; a GAIN_U whose low half is written and whose high half is 4 and 16. -/
theorem witness_RegisterWritesActOnTheirRegister :
    let rst := clear rst;
    rst.pwr.sramClear = true ∧ ((0 : Nat) + 4 ≤ 0x100000 ∧ 0xFFFFC + 4 ≤ 0x100000 ∧ 0xFFFF8 + 8 ≤ 0x100000 ∧ ¬(0xFFFFC % 8 = 0) ∧ 0x100000 < 0xFFFFC + 8)
    ∧ ((0x604 : Nat) ≤ 0x604 ∧ 0xFFC < 0x1000 ∧ 0x5000 ≤ 0xFFFC ∧ 0x20000 ≤ 0xFFFFC)
    ∧ ((65535 : BitVec 32).toNat ≤ 65535 ∧ 65535 < (65536 : BitVec 32).toNat ∧ (99 : BitVec 32).toNat < 100
      ∧ 1000000000 < (1000000001 : BitVec 32).toNat)
    ∧ (rst.ring.go = false ∧ regAt rst 0x300 (lowWord rst.ring.dbBase.toNat) = 0
      ∧ (inRing (fun r => { r with go := true }) rst).ring.go = true)
    ∧ (mget {} (portAt (modPort 3 (fun q => { q with rules := [(63, { en := true })] }) rst) 3).rules 63).en = true
    ∧ ((aoutAt rst 7).s0.csCommit = false
      ∧ (aoutAt (modAout 7 (fun p => { p with s0 := { p.s0 with csCommit := true } }) rst) 7).s0.csCommit = true)
    ∧ (setReg 0x2370 0 rst).regs.plain.find? (fun q => q.1 == 0x2100 + 16 * 39) = some (0x2100 + 16 * 39, 0)
    ∧ rst.alive = true := by decide

def reqOf (m a : Nat) (w : Bool) : XReq := { master := m, addr := a, write := w, words := 1 }
def inXbar (f : XbarState → XbarState) (d : Device) : Device := { d with xbar := f d.xbar }
def pendingOf (r : XReq) (q o : Nat) : XPending := { req := r, qos := q, order := o }

/-- Requests of 1 and 512 words, of master 17 and of one that does not exist, at a DRAM channel, a lane and another target;
two of different QoS; one in service; nothing. -/
theorem witness_CrossbarGrantsTheHighestQos :
    let rst := clear rst;
    rst.alive = true ∧ rst.pwr.sramClear = true ∧ ((17 : Nat) < 18 ∧ 1 ≤ (1 : Nat) ∧ (512 : Nat) ≤ 512 ∧ rst.xbar.resetting = [])
    ∧ (targetOf rst (reqOf 13 0 false) = 4 ∨ 2 ≤ targetOf rst (reqOf 13 0 false))
    ∧ (isLane (targetOf rst (reqOf 0 0 false)) = true ∧ (18 : Nat) ≤ 18
      ∧ let t := targetOf (inImg (fun i => { i with dcfg := [2, 2] }) rst) (reqOf 9 0x1000000000 false);
        t < 2 ∧ parkedOn t = some 9 ∧ parkedOn t ≠ some 10)
    ∧ (waitingAt rst 4 = [] ∧ choose rst 4 = none ∧ serving rst 4 = none)
    ∧ (let p := pendingOf (reqOf 8 0 false) 9 1; let q := pendingOf (reqOf 9 0 false) 3 0;
      let d := inXbar (fun x => { x with waiting := [(4, [q, p])] }) rst;
      serving d 4 = none ∧ choose d 4 = some p ∧ eligible d 4 q = true)
    ∧ (serving (setServing 4 (some (pendingOf (reqOf 8 0 false) 9 1)) rst) 4).isSome = true
    ∧ (inService (setServing 4 (some (pendingOf (reqOf 8 0 false) 9 1)) rst) 8 = true ∧ inService rst 8 = false) := by decide

theorem witness_TransactionsDoTheirWords :
    ((dchAt rst 1).alert = false ∧ (dchAt (modDch 1 (fun c => { c with alert := true }) rst) 1).alert = true ∧ serving rst 1 = none)
    ∧ (∀ t ∈ [1, 4, 24], serving (setServing t (some (pendingOf (reqOf 8 0 true) 9 1)) rst) t = some (pendingOf (reqOf 8 0 true) 9 1))
    ∧ (8 ∉ rst.xbar.resetting ∧ 8 ∈ (inXbar (fun x => { x with resetting := [8] }) rst).xbar.resetting)
    ∧ (oldestLane rst 2 = none ∧ oldestLane (setServing 32 (some (pendingOf (reqOf 0 0 true) 9 1)) rst) 2 = some (pendingOf (reqOf 0 0 true) 9 1))
    ∧ (readBefore rst (pendingOf (reqOf 8 0 false) 9 1) = false
      ∧ readBefore (setServing 1 (some (pendingOf (reqOf 8 0 false) 9 0)) rst) (pendingOf (reqOf 8 0 false) 9 1) = true)
    ∧ (laneWrites (setServing 32 (some (pendingOf (reqOf 0 7 true) 9 1)) rst) 7 = true ∧ laneWrites rst 7 = false)
    ∧ ((clear rst).pwr.sramClear = true ∧ (0xFFFFF : Nat) < 0x100000 ∧ 0xFFFFF ∉ rst.mem.bad ∧ strobeOf { reqOf 8 0 true with strobes := [1] } 0 ≠ 0)
    ∧ ((regAt (setReg 0x1000 1 rst) 0x1000 0).getLsbD 0 = true ∧ rst.regs.dbgBusy = false ∧ (regAt rst 0x1000 0).getLsbD 0 = false) := by
  decide

/-! ### Frames, geometry, bays, the dispatcher -/

theorem witness_TickAdvancesTheFrameInTheOrderOfItsActions :
    rst.clk.tickOn = false
    ∧ (∀ b, let d := inClk (fun k => { k with tickOn := true, ticked := b }) rst;
      d.alive = true ∧ d.clk.tickOn = true ∧ d.clk.ticked = b) := by decide

theorem witness_FnStepRenumbersTheFrames :
    rst.pwr.stepFade ≠ 1 ∧ (inPwr (fun w => { w with stepFade := 1 }) rst).pwr.stepFade = 1
    ∧ (∃ dropped : Device, dropped = (when rst.pwr.rendering
        (fun x => dropAll 3 (rst.cmd.queue.filter (fun p => !p.applied)) env0 x) rst) ∧ dropped.evt.store.length < 250) :=
  ⟨by decide, by decide, _, rfl, by decide⟩

theorem witness_FrameEventsActOnTheirObject :
    (rst.geo.running = false ∧ rst.geo.failed = false ∧ ({ rst.geo with running := true } : GeoState).running = true
      ∧ ({ rst.geo with failed := true } : GeoState).failed = true)
    ∧ (∀ n ∈ [59, 60], let d := modObj 0 (fun x => { x with params := { x.params with mdSrc := .stream, staleFrames := 60 }, staleCount := n }) oneOut;
      0 < nObj d ∧ (objAt d 0).params.mdSrc ≠ .command ∧ (objAt d 0).params.staleFrames ≠ 0 ∧ (objAt d 0).staleCount = n)
    ∧ (∀ n ∈ [59, 60], (outAt (modOut 0 (fun o => { o with silent := some n }) oneOut) 0).silent = some n)
    ∧ ((outAt oneOut 0).silent = none ∧ nObj oneOut ≤ 1 ∧ nOut oneOut ≤ 1)
    ∧ rst.cmd.queue.find? (fun p => p.ridx = 3 && !p.staged && !p.applied) = none
    ∧ (let p := { waiting 1 0 with ridx := 3, staged := false };
      (inCmd (fun k => { k with queue := [p] }) rst).cmd.queue.find? (fun q => q.ridx = 3 && !q.staged && !q.applied) = some p)
    ∧ (let p := { cmdP 0x202 [(0, 1)] none with uid := 2 };
      let d := inImg (fun i => { small i with outs := [{}] }) rst;
      loadMayStage p env0 (inCmd (fun k => { k with queue := [p] }) d) = true
        ∧ loadMayStage p env0 (inCmd (fun k => { k with queue := [{ p with uid := 1 }, p] }) d) = false) := by
  decide

def rec2 : PendRec := { stamp := 2, m := {}, clamped := false, hub := 0 }
/-- A record of an object beyond the last, from another source, with a reserved law, of a law the image does not admit, with
no law (OFF), with and without a home for its task. -/
theorem witness_MetadataRecordIsCheckedAndSealed :
    (let r := zeros 32; recObj r = 0 ∧ nObj oneOut = 1 ∧ recObj (zeros 4 ++ (1 : Byte) :: zeros 27) ≥ nObj oneOut
      ∧ (objAt oneOut 0).params.mdSrc = .command
      ∧ (recMotion 1 r).isSome = true ∧ recMotion 1 (zeros 6 ++ (9 : Byte) :: zeros 25) = none)
    ∧ (∀ m, recMotion 1 (zeros 32) = some m → lawAllowed oneOut 0 m.1.law = true)
    ∧ lawAllowed oneOut 0 .wfs = false
    ∧ (homeOf oneOut (mdTask oneOut 0) = none
      ∧ (homeOf { oneOut with disp := { oneOut.disp with homes := mset 0 [] (mdTask oneOut 0) 1 } } (mdTask oneOut 0)).isSome = true)
    ∧ (earlier (2 : BitVec 32) 3 = true ∧ earlier (3 : BitVec 32) 3 = false)
    ∧ ((objAt rst 0).params.mdSrc = .command ∧ ({ rec2 with src := .command }).src = .command
      ∧ (objAt rst 0).params.mdSrc ≠ ({ rec2 with src := .stream }).src
      ∧ (objAt (modObj 0 (fun x => { x with sealed := some 3 }) rst) 0).sealed = some 3 ∧ ({ rec2 with hub := 2 }).hub ≠ 0)
    ∧ (∀ h, h ∈ ({ lateBy := [h] } : ObjState).lateBy) ∧ latestRec 2 [rec2] = some rec2 := by
  refine ⟨?_, ?_, ?_, ?_, ?_, ?_, fun h => List.mem_singleton.mpr rfl, ?_⟩
  all_goals decide +kernel

theorem witness_BayEnginesRunOncePerFrame :
    (let d := rendering oneOut; d.pwr.rendering = true ∧ 15 ∉ d.xp.started ∧ bayReady d 15 = true)
    ∧ bayReady (rendering oneOut) 0 = false
    ∧ (frameOpen rst 7 = true ∧ frameOpen { rst with disp := { rst.disp with cancelled := some 7 } } 7 = false)
    ∧ (let d := { rendering oneOut with xp := { rst.xp with started := List.range 16 } };
      d.pwr.rendering = true ∧ 0 < nOut d ∧ (outAt d 0).xsum = none ∧ ∀ b, b < 16 → b ∈ d.xp.started)
    ∧ (let d := modOut 0 (fun o => { o with convIn := some [] }) (inImg (fun i => { small i with outs := [{ convMax := 64 }] }) rst);
      0 < nOut d ∧ (outStat (cfg d) 0).convMax ≠ 0 ∧ (outAt d 0).convIn.isSome = true ∧ (outAt d 0).convOut = none)
    ∧ (let d := rendering (inImg (fun i => { small i with objBulkEn := true }) rst);
      d.pwr.rendering = true ∧ (cfg d).objBulkEn = true ∧ 0 < nObj d)
    ∧ State.reset.fc.fn - 1 ≠ State.reset.fc.fn - 2 := by decide

def work (bg : Bool) : Work := { task := 3, frame := 5, bg := bg }
def custom (bg : Bool) : TaskEntry := { kind := .custom 0, flow := 9, pos := 0, background := bg, cost := 5, ops := [] }
def slot63 (q : CoreSlot) : Device := setCslot 63 q rst
theorem witness_FreeCoreTakesTheHeadOfItsList :
    (∀ x ∈ [CoreSt.available, .spare, .leaving], (cslotAt (slot63 { st := x }) 63).st = x)
    ∧ ((cslotAt (slot63 { ready := [work false] }) 63).ready = work false :: [] ∧ (cslotAt (slot63 { ready := [work false] }) 63).running = none)
    ∧ ((cslotAt (slot63 { suspended := some (work true) }) 63).suspended = some (work true))
    ∧ rst.disp.background.find? (startable rst) = none
    ∧ (let d := { rst with disp := { rst.disp with background := [work true], tasks := List.replicate 4 (custom true) } };
      d.disp.background.find? (startable d) = some (work true))
    ∧ (∀ bg, (cslotAt (slot63 { running := some (work bg), ready := [work false] }) 63).running = some (work bg))
    ∧ interruptible (coreAt rst 63).regs = true
    ∧ (let m : Parked := { work := work true, regs := {} };
      let d := modCore 63 (fun k => { k with parked := [m] }) (slot63 {});
      (cslotAt d 63).st = .available ∧ (cslotAt d 63).running = none ∧ (cslotAt d 63).suspended = none
        ∧ (cslotAt d 63).ready.find? (startable d) = none ∧ (coreAt d 63).parked = m :: [])
    ∧ (let w := { work true with task := 0xFFFF, job := some (.reFront 0) };
      let d : Device := { slot63 {} with disp := { (slot63 {}).disp with reruns := [w] } };
      rerunFor 63 d = some w ∧ (coreAt d 63).parked = [] ∧ rerunFor 63 rst = none)
    ∧ rst.disp.copy = none
    ∧ (∀ b, ({ rst with disp := { rst.disp with copy := some { src := some 1, dest := some 2, started := b } } } : Device).disp.copy
        = some { src := some 1, dest := some 2, started := b }) := by decide

/-! ### Render cores -/

/-- Core 63 executes a task: a built-in one, or custom work of CLASS 0 or 1 at the lowest address of its region. -/
def running (own bg : Bool) (f : CoreRegs → CoreRegs) : Device :=
  modCore 63 (fun k => { k with regs := f { k.regs with pc := if own then 0x8000 else 0, sb := 0, sl := 8 } })
    { slot63 { running := some (work false) } with
      disp := { (slot63 { running := some (work false) }).disp with tasks := if own then List.replicate 4 (custom bg) else [] } }
def loadMove (n : Nat) : Move := { store := false, dreg := 31, preg := BitVec.ofNat 4 n, size := 0, mod := 0 }
def storeMove : Move := { store := true, dreg := 31, preg := 0, size := 0, mod := 0 }

theorem issues_of {d : Device} {c : Nat} {listed stalls : Bool}
    (h : c < 64 ∧ coreRuns d c = true ∧ fetchKey d c ∉ d.mem.imemBad ∧ (coreAt d c).regs.reps = [] ∧ (coreAt d c).regs.slots = 0 ∧ (coreAt d c).regs.holdN = 0
      ∧ ((coreCtx d c).custom = true → 0x8000 ≤ (coreAt d c).regs.pc.toNat)) : Issues d c listed stalls := by
  have n : ¬∃ l k, (coreAt d c).regs.reps = l :: k ∧ (coreAt d c).regs.pc = l.re := by rw [h.2.2.2.1]; simp
  exact ⟨h.1, h.2.1, h.2.2.1, h.2.2.2.2.2.2, fun _ => ⟨h.2.2.2.2.1, n⟩, fun x => absurd h.2.2.2.2.1 x,
    fun _ => ⟨h.2.2.2.2.1, h.2.2.2.2.2.1⟩⟩

/-- Core 63 with scratch word 0 uncorrectable. -/
def badWord : CoreState := { coreAt (running true false id) 63 with bad := [0] }
/-- A load and a store that go, also where MOVE1 loads the uncorrectable word that MOVE0 stores; a form of each shape. -/
theorem witness_LaneInstructionsWriteTheirHalves :
    (∀ l w, Issues (running true false id) 63 l w) ∧ (running true false id).alive = true
    ∧ MovesGo { move0 := some (loadMove 0), move1 := some storeMove } (coreAt (running true false id) 63)
    ∧ MovesGo { move0 := some storeMove, move1 := some (loadMove 0) } badWord
    ∧ (({ dst := 31, srcA := 31, srcB := 31, lane := .pairb } : AFmt).wf .binary = true ∧ ({ lane := .pair } : AFmt).wf .unary = true
      ∧ ({ lane := .hi } : AFmt).wf .binaryHalf = true ∧ ({} : AFmt).wf .unaryHalf = true)
    ∧ aMoves {} = [] := by
  refine ⟨fun l w => issues_of (by decide), by decide, ?_, ?_, by decide, by decide⟩
  · have h : ∀ p ∈ [(loadMove 0, 0), (storeMove, 1)], moveFault (coreAt (running true false id) 63).regs p.1 = none
        ∧ moveBusy (coreAt (running true false id) 63) p.1 = false := by decide
    have b : (coreAt (running true false id) 63).bad = [] := by decide
    exact fun p m => ⟨(h p m).1, (h p m).2, fun _ x => by rw [b] at x; exact absurd x List.not_mem_nil⟩
  · have h : ∀ p ∈ [(storeMove, 0), (loadMove 0, 1)], moveFault badWord.regs p.1 = none ∧ moveBusy badWord p.1 = false
        ∧ (p.1.store = false → p.2 = 1 ∧ moveWord storeMove.size (moveAddr badWord.regs storeMove)
          = moveWord p.1.size (moveAddr badWord.regs p.1)) := by decide
    exact fun p m => ⟨(h p m).1, (h p m).2.1, fun x _ => ⟨((h p m).2.2 x).1, storeMove, rfl, rfl, ((h p m).2.2 x).2⟩⟩

/-- A move whose ring has length 0, one whose word a transfer holds, one of an uncorrectable word, and an instruction
word that is itself uncorrectable. -/
theorem witness_ComparesConversionsAndMoves :
    (∀ l w, Issues (running false false id) 63 l w)
    ∧ (cmpWf {} = true ∧ ({} : AFmt).wf .pcm = true ∧ ({} : AFmt).wf .whole = true ∧ ({} : AFmt).wf .bare = true)
    ∧ ((aMoves { move0 := some (loadMove 4) }).findSome? (moveFault (running false false (fun r => { r with pb := [(1, 0x80)] })
        |> (coreAt · 63)).regs)).isSome = true
    ∧ (let k := { coreAt (running false false id) 63 with xfers := [(0, some { write := false, scratch := 0, count := 1, addr := 0 })] };
      (∀ mv ∈ aMoves { move0 := some (loadMove 0) }, moveFault k.regs mv = none) ∧ moveBusy k (loadMove 0) = true
      ∧ k.regs.slots = 0 ∧ k.regs.holdN = 0)
    ∧ ((∀ m ∈ aMoves { move0 := some (loadMove 0) }, moveFault badWord.regs m = none ∧ moveBusy badWord m = false)
      ∧ badLoad badWord (aMoves { move0 := some (loadMove 0) }) = some (loadMove 0))
    ∧ (let d := { running false false id with mem := { rst.mem with imemBad := [65536 * 7] } };
      coreRuns d 63 = true ∧ (coreCtx d 63).custom = false ∧ fetchKey d 63 ∈ d.mem.imemBad)
    ∧ (running false false (fun r => { r with holdN := 1 }) |> (coreAt · 63)).regs.holdN ≠ 0
    ∧ (15 : Nat) < 16 := by
  refine ⟨fun l w => issues_of (by decide), by decide⟩

theorem witness_ImmediatesAndSpecialRegisters :
    Issues (running false false id) 63 false false
    ∧ (sregWf 0x47 = true ∧ sregRO 0x47 = false ∧ sregRO 0x40 = true ∧ sregWf 0x40 = true ∧ sregWf 0x57 = true ∧ sregRO 0x57 = true)
    ∧ (effAddr {} 0 = some 0 ∧ effAddr { pb := [(3, 0x80000000)] } 15 = none ∧ (15 : Nat) < 16) :=
  ⟨issues_of (by decide), by decide⟩

/-- A branch that stays in the region of custom code and one that leaves it; bodies of 1, 4,096, 0 and 4,097 instructions; a
level within another and one that ends with it; the delay slots 2, 1 and 0; the last repetition and one before it. -/
theorem witness_BranchesAndRepeatsChangeTheAddress :
    Issues (running true false id) 63 true false ∧ (coreCtx (running true false id) 63).custom = true
    ∧ (let d := running true false (fun r => { r with pc := 0x7FFF });
      coreRuns d 63 = true ∧ (coreCtx d 63).custom = true ∧ (coreAt d 63).regs.pc.toNat < 0x8000)
    ∧ (condHolds 0 {} = true ∧ condHolds 1 {} = false ∧ (0x7FFF : BitVec 16).toNat < 0x8000)
    ∧ ((0x8001 : BitVec 16).toNat - (0x8000 : BitVec 16).toNat = 1 ∧ (0x9000 : BitVec 16).toNat - (0x8000 : BitVec 16).toNat = 4096
      ∧ (0x9001 : BitVec 16).toNat - (0x8000 : BitVec 16).toNat = 4097 ∧ (0x8000 : BitVec 16).toNat - (0x8000 : BitVec 16).toNat = 0)
    ∧ (let l : RepLevel := { rc := 2, rs := 0x8000, re := 0x8005 };
      l.rs.toNat ≤ (0x8000 : BitVec 16).toNat ∧ (0x8000 : BitVec 16).toNat ≤ l.re.toNat ∧ (0x8004 : BitVec 16).toNat < l.re.toNat
        ∧ ¬((0x8005 : BitVec 16).toNat < l.re.toNat) ∧ 1 < l.rc.toNat ∧ ({ l with rc := 1 } : RepLevel).rc.toNat ≤ 1)
    ∧ (∀ n ∈ [0, 1, 2], ({ slots := n, target := some 5 } : CoreRegs).slots = n) := by
  refine ⟨issues_of (by decide), by decide⟩

/-- Free tags and busy ones; a transfer within the scratch range, one past it, a target of the store and one of the DRAM for
CLASS 1; a transfer that waits, of the task and of an aborted one, and one that ALERT_N holds. -/
theorem witness_TransfersRunOnTheirTags :
    (∀ l w, Issues (running true true id) 63 l w) ∧ busyTags (coreAt (running true true id) 63) = 0
    ∧ (let x : Xfer := { write := true, scratch := 0, count := 8, addr := 0 };
      let k := { coreAt (running true true id) 63 with xfers := [(3, some x)] };
      busyTags k &&& 8 ≠ 0 ∧ oldestXfer k = some (.live, 3, x) ∧ k.dead = [] ∧ mget none k.xfers 3 ≠ none ∧ mget none k.xfers 0 = none)
    ∧ (xTarget 0 8192 = .word 0 ∧ xTarget 0xFFFFF 2 = .other ∧ xTarget 0x1000000000 1 = .dram 0
      ∧ (coreCtx (running true true id) 63).background = true ∧ hitsBuffer [] (.word 0) 8 = false)
    ∧ (0 + 8 ≤ (coreAt (running true true id) 63).regs.sb + (coreAt (running true true id) 63).regs.sl
      ∧ ¬(0 + 9 ≤ (coreAt (running true true id) 63).regs.sb + (coreAt (running true true id) 63).regs.sl))
    ∧ oldestXfer (coreAt (running true true id) 63) = none
    ∧ (let x : Xfer := { write := false, scratch := 0, count := 8, addr := 0x1000000000 };
      let k := { coreAt (running true true id) 63 with dead := [(3, x)] };
      let d := modDch 0 (fun c => { c with alert := true }) (inImg (fun i => { i with dcfg := [2, 2] }) rst);
      oldestXfer k = some (.dead, 3, x) ∧ xferStuck d (xferParts 63 true x []) = true
        ∧ xferStuck rst (xferParts 63 true x []) = false) := by
  refine ⟨fun l w => issues_of (by decide), by decide⟩

theorem witness_CoreWordsReadBack :
    (wellFormed (.br 63 6 0xFFFF) = true ∨ wellFormed (.br 63 5 0xFFFF) = true) ∧ (encodeCoreWord (.br 63 5 0xFFFF)).isSome = true
    ∧ ((encodeCoreWord (.br 63 5 0xFFFF)).bind (decodeCoreWord 63)) = some (.br 63 5 0xFFFF) := by decide

def rampXp : XpIn := { dc := 0, gc := fOne, dt := 600, gt := fOne, j := false, ramp := false }
theorem witness_DelayRampEndsOnItsTarget : xpKind rampXp = 4 ∧ 0 < 16 := by decide

/-! ### Memory errors, the DRAM channels, the power stage -/

theorem witness_CorrectedWordsAreWrittenBackAndCounted :
    (∀ p ∈ [UpsetAt.bay 15 7, .entry 0 3, .imem 7 0xFFFF, .store 0xFFFFF],
      p ∈ ({ rst with mem := { rst.mem with wb := [p] } } : Device).mem.wb ∧ p ∉ rst.mem.wb)
    ∧ (9 ∉ (coreAt rst 63).soft ∧ 9 ∈ (coreAt (modCore 63 (fun k => { k with soft := [9] }) rst) 63).soft)
    ∧ (let d := modDch 1 (fun c => { c with ready := true, wb := [8] }) rst;
      8 ∈ (dchAt d 1).wb ∧ dramUsable d 1 = true ∧ dramBusy d 1 = false ∧ 8 ∉ (dchAt rst 1).wb)
    ∧ (5 ∉ rst.mem.bad ∧ 5 ∈ ({ rst with mem := { rst.mem with bad := [5] } } : Device).mem.bad)
    ∧ ((1 : BitVec 9) ≠ 0 ∧ (1 : BitVec 9) ≠ 0x1FF) := by decide

def ready (ch : Nat) (f : DramChan → DramChan) (d : Device) : Device := modDch ch (fun c => f { c with ready := true }) d
/-- A usable channel at rest, one with a transaction and one with a request of low QoS; eight owed; each state of an alert. -/
theorem witness_DramChannelFollowsItsEvents :
    (¬dramUsable rst 1 = true ∧ dramUsable (ready 1 id rst) 1 = true ∧ dramBusy (ready 1 id rst) 1 = false
      ∧ (dchAt (ready 1 id rst) 1).selfRef ≠ 1 ∧ dramIdle (ready 1 id rst) 1 = true ∧ dramIdle rst 1 = false)
    ∧ (dchAt (ready 1 (fun c => { c with selfRef := 1 }) rst) 1).selfRef = 1
    ∧ (cfg (inImg (fun i => { i with scrubEn := true }) rst)).scrubEn = true ∧ rst.img.img = none
    ∧ (let d := setServing 1 (some (pendingOf (reqOf 9 0x1000000000 false) 9 0)) (ready 1 id rst); dramBusy d 1 = true ∧ dramHeld d 1 = true)
    ∧ (let d := inXbar (fun x => { x with waiting := [(1, [pendingOf (reqOf 9 0x1000000000 false) 0 0])] })
          (inImg (fun i => { i with rtQos := 3 }) (ready 1 id rst));
        dramBusy d 1 = true ∧ dramHeld d 1 = false)
    ∧ (∀ n ∈ [7, 8], (dchAt (ready 1 (fun c => { c with owed := n }) rst) 1).owed = n)
    ∧ (∀ n ∈ [2, 3], (dchAt (ready 1 (fun c => { c with replays := n, alert := true }) rst) 1).replays = n)
    ∧ ((dchAt rst 1).alert = false ∧ (dchAt (ready 1 (fun c => { c with alert := true }) rst) 1).alert = true)
    ∧ ((inPwr (fun w => { w with quiet := true }) (ready 1 (fun c => { c with selfRef := 2 }) rst)).pwr.quiet = true)
    ∧ (let d := inPwr (fun w => { w with sramClear := true }) rst;
      (1 : Nat) < 2 ∧ d.pwr.sramClear = true ∧ (dchAt d 1).ready = false ∧ (dchAt d 1).failed = none ∧ rst.pwr.sramClear = false) := by
  decide

/-- A chain with a run of 4,096 equal bits, which goes on or has ended; a detector that a frame hits, with each action, in each role; one that
clears; a reset that fills. -/
theorem witness_DecimationChainsReportWhatTheyFind :
    (∀ n ∈ [4095, 4096], let d := modDec 39 (fun c => { c with running := true, eqBits := n, stuckRun := some true }) rst;
      (decAt d 39).running = true ∧ (decAt d 39).eqBits = n ∧ (decAt d 39).stuckRun = some true)
    ∧ (decAt rst 39).stuckRun = none
    ∧ (∀ a ∈ [0, 1, 2], let t : Detector := { act := a, mode := 2, thr := some fOne };
      tdHits false t [fint 5] = true ∧ t.asserted = false ∧ t.act = a)
    ∧ (let t : Detector := { asserted := true, below := 5, hold := 5, mode := 2, thr := some fOne }; t.asserted = true ∧ t.hold ≤ t.below ∧ tdHits false t [0] = false)
    ∧ ((inPwr (fun w => { w with spoke := true }) rst).pwr.spoke = true ∧ rst.pwr.spoke = false)
    ∧ ((decAt (modDec 39 (fun c => { c with reset := 3 }) rst) 39).resetUid = none
      ∧ (decAt (modDec 39 (fun c => { c with reset := 3, resetUid := some 1 }) rst) 39).resetUid = some 1) := by decide

def chan (f : Pch → Pch) : Device :=
  modPch 0 f (inPwr (fun w => { w with spoke := true }) (inImg (fun i => { small i with pchOut := [0] }) rst))
def diag0 (phase frames : Nat) : Diag :=
  { mask := 1, ridx := 0, vtest := fOne, freq := fOne, open_ := fOne, short := fOne, rails := [], phase := phase, frames := frames }
def withDiag (g : Diag) (d : Device) : Device := { d with psc := { d.psc with diags := [g] } }

theorem witness_PowerChannelEventsMoveItsState :
    (pchConfigured rst 0 = false ∧ pchConfigured (chan id) 0 = true)
    ∧ (∀ st ∈ [PchSt.off, .diag, .cmUp, .play, .cmDown, .ocWait, .latched, .safe],
      let p := pchAt (chan (fun p => { p with st := st })) 0; p.st = st ∧ p.ocIgnored = false ∧ p.trip = none ∧ p.resetting = none)
    ∧ (diagOf (withDiag (diag0 0 0) (chan (fun p => { p with st := .diag }))) 0 = some (diag0 0 0)
      ∧ diagOf (chan (fun p => { p with st := .diag })) 0 = none
      ∧ (pchAt (chan (fun p => { p with gatesLow := false })) 0).gatesLow = false ∧ (pchAt (chan id) 0).gatesLow = true)
    ∧ (let d := chan (fun p => { p with i := [fint 3] });
      (pchAt d 0).i.any (fun v => flt (fmul (f36Rat 5 4) (iMax d 0)) (fabs v)) = true)
    ∧ (pchAt (chan id) 0).i.any (fun v => flt (fmul (f36Rat 5 4) (iMax (chan id) 0)) (fabs v)) = false
    ∧ (let p := pchAt (chan (fun p => { p with st := .cmUp, q := cmPeriods p })) 0; cmPeriods p ≤ p.q)
    ∧ (pchAt (chan id) 0).q < cmPeriods (pchAt (chan id) 0)
    ∧ ((pchAt (chan id) 0).q = 0 ∧ (pchAt (chan id) 0).ramp ≠ .fadeOut)
    ∧ (∀ n ∈ [299, 300, 599, 600], (pchAt (chan (fun p => { p with waited := n })) 0).waited = n)
    ∧ (pchAt (chan (fun p => { p with resetting := some 4 })) 0).resetting = some 4
    ∧ (∀ n ∈ [(pcfg {} 1).reWin - 1, (pcfg {} 1).reWin], (pchAt (chan (fun p => { p with st := .play, winFrames := n })) 0).winFrames = n)
    ∧ (let c := pcfg (pchAt (chan id) 0) 1; flt (fdiv 0 (fint (c.reWin * nSmp (chan id)))) (fmul c.reImin c.reImin) = true)
    ∧ (let d := chan (fun p => { p with sii := fint 100000000, svi := fint 800000000 }); let p := pchAt d 0; let c := pcfg p 1;
      flt (fdiv p.sii (fint (c.reWin * nSmp d))) (fmul c.reImin c.reImin) = false) := by decide +kernel

theorem witness_PowerCommandsRailsAndLimits :
    rst.psc.diags = []
    ∧ (∀ k ∈ [0, 1, 2, 3, 4, 5], let g := diag0 k 100000; diagOver (withDiag g (chan id)) g = true ∧ g.phase = k)
    ∧ diagOver (withDiag (diag0 1 0) (chan id)) (diag0 1 0) = false
    ∧ (∀ n ∈ [5, 6], (railAt (modRail 3 (fun r => { r with lowFrames := n }) rst) 3).lowFrames = n)
    ∧ (railOver (modRail 0 (fun r => { r with v := [fint 400] }) (chan id)) 0 = true ∧ railOver rst 0 = false)
    ∧ (rst.jrn.committing = []
      ∧ ({ rst with jrn := { rst.jrn with committing := [(1, {})] } } : Device).jrn.committing = (1, {}) :: [])
    ∧ (∀ st ∈ [PchSt.off, .diag, .cmUp, .play, .cmDown, .ocWait, .latched, .safe],
      let p := pchAt (chan (fun p => { p with st := st })) 0; pchDue p = st ∧ p.resetting = none)
    ∧ (pchAt (chan (fun p => { p with resetting := some 0 })) 0).resetting.isSome = true
    ∧ ((pchAt (chan (fun p => { p with diagOk := true })) 0).diagOk = true ∧ (pchAt (chan id) 0).diagOk = false)
    ∧ (∀ b, safeCause (modDec 0 (fun c => { c with stuck := b }) (chan (fun p => { p with st := .safe, cause := 4 }))) 0 = b)
    ∧ ((List.replicate 16 ({} : LimitRec)).length = 16 ∧ rst.jrn.slots.length < 16 ∧ (List.range 16).any (pchActive rst) = false)
    ∧ (diagBusy (chan id) 1 = false ∧ diagBusy (chan (fun p => { p with st := .diag })) 1 = true) := by
  refine ⟨by decide, by decide +kernel, by decide +kernel, by decide, by decide +kernel, by decide, by decide, by decide, by decide,
    by decide +kernel, by decide, by decide⟩

/-! ### Redundant hubs -/

def hubIn (s : PairSt) (f : PairState → PairState) : Device := inPair (fun p => f { p with st := s }) (inImg (fun i => { small i with pairId := 1 }) rst)

/-- Messages on a hub without a partner and on hubs of a pair: a STATUS of the peer and of another sender; the third missed
heartbeat and one before it, in each state; the next mirror, and one that is not; a completion that matches a record. -/
theorem witness_DrawbarMessagesActOnThePair :
    ¬hubOfPair rst = true ∧ hubOfPair (hubIn .active id) = true ∧ isActive (hubIn .active id).pair = true
    ∧ ((peerSt 3).from_ ≠ 3 - (cfg (hubIn .active id)).pairId
      ∧ ({ peerSt 3 with from_ := 2 } : StatusMsg).from_ = 3 - (cfg (hubIn .active id)).pairId)
    ∧ (∀ n ∈ [1, 2], let p := (hubIn .detached (fun p => { p with missed := n, up := true, gotStatus := false })).pair;
      p.up = true ∧ p.gotStatus = false ∧ (add32 p.missed 1 < 3 ∨ 3 ≤ add32 p.missed 1))
    ∧ (∀ n ∈ [2, 3], let p := (hubIn .inSync (fun p => { p with streamSilence := n })).pair; isSync p = true ∧ p.streamSilence = n)
    ∧ ((hubIn .resync id).pair.st = .resync ∧ isSync (hubIn .active id).pair = false)
    ∧ ((hubIn .detached (fun p => { p with gotStatus := true })).pair.up = false)
    ∧ (let p := (hubIn .inSync id).pair; ¬isActive p = true ∧ (1 : BitVec 32) = p.mseq + 1 ∧ ¬(2 : BitVec 32) = p.mseq + 1)
    ∧ (later (5 : BitVec 32) (hubIn .stopped id).pair.mseq = true)
    ∧ (let p := (hubIn .inSync (fun p => { p with ownDone := [(4, 0, 7)] })).pair;
      p.ownDone.find? (fun x => x.1 = 4) = some (4, 0, 7) ∧ 6 ≤ ((13 : BitVec 32) + 1 - 7).toNat ∧ isSync p = true)
    ∧ (∃ c : Pend, c = { waiting 1 0 with mseq := some 4, fromMirror := true } ∧ c.mseq = some 4)
    ∧ (let d := hubIn .inSync id;
      0x2000 ∈ localSrcs ∧ ownsSrc d 0x2000 = true ∧ ownsSrc { d with inp := { d.inp with ownerB := [(0x2000, true)] } } 0x2000 = false)
    ∧ ((hubIn .inSync id).pair.ahead = [] ∧ (hubIn .stopped id).pair.st = .stopped)
    ∧ ((hubIn .detached (fun p => { p with missed := 3 })).pair.up = false ∧ (hubIn .detached id).pair.missed < 3)
    ∧ (let p := (hubIn .resync id).pair; p.st = .resync ∧ p.stage = 0) := by
  refine ⟨by decide, by decide, by decide, by decide, by decide, by decide, by decide, by decide, by decide, by decide, by decide,
    ⟨_, rfl, rfl⟩, by decide, by decide, by decide, by decide⟩

def run0 (done : Bool) (mask : BitVec 16) (started : BitVec 32) (peer : Option (BitVec 16 × BitVec 16)) : Rerun :=
  { dfn := 5, groups := 3, started := started, done := done, consistent := mask, peer := peer }
theorem witness_RerunsAndResyncsEndAsTheirRulesSay :
    (rst.pair.rerun = none ∧ (hubIn .check (fun p => { p with rerun := some (run0 true 3 0 none) })).pair.rerun = some (run0 true 3 0 none))
    ∧ (rerunBusy (run0 false 0 0 none) rst = false
      ∧ rerunBusy (run0 false 0 0 none) { rst with disp := { rst.disp with reruns := [{ work true with job := some (.reFront 0) }] } } = true)
    ∧ ((State.reset.fc.fn = (run0 false 0 0 none).started) ∧ State.reset.fc.fn ≠ (run0 false 0 1 none).started)
    ∧ ((run0 true 3 0xFFFFFFFF none).done = true ∧ 2 ≤ (State.reset.fc.fn + 1 - (run0 true 3 0xFFFFFFFF none).started).toNat
      ∧ ¬(2 ≤ (State.reset.fc.fn + 1 - (run0 true 3 0 none).started).toNat))
    ∧ ((run0 true 3 0 none).consistent &&& 3 = 3 ∧ (run0 true 1 0 none).consistent &&& 3 ≠ 3)
    ∧ ((3 : BitVec 16) &&& ~~~3 = 0 ∧ (3 : BitVec 16) &&& ~~~1 ≠ 0)
    ∧ (∀ n ∈ [0, 3], let d := hubIn .resync (fun p => { p with stage := n, wanted := some [], stageWait := 100000 });
      hubOfPair d = true ∧ d.pair.st = .resync ∧ d.pair.stage < 4 ∧ d.pair.wanted = some [] ∧ d.pair.items = []
        ∧ stageWaits d d.pair.stage ≤ d.pair.stageWait)
    ∧ (∀ n ∈ [59, 60], let p := (hubIn .resync (fun p => { p with stage := 4, run := n })).pair; p.stage = 4 ∧ p.run = n) := by decide

theorem witness_HubsWithdrawPromoteAndDemote :
    (∀ st ∈ [PairSt.single, .active, .withdrawn, .stopped, .unfit, .inSync, .check, .resync, .detached],
      let p := (hubIn st (fun p => { p with found := [causeRerun, 1] })).pair; p.st = st ∧ p.found = causeRerun :: [1])
    ∧ (([causeRerun, causeHost].filter (fun c => c ≠ causeRerun && c ≠ causeHost)) = []
      ∧ ([causeRerun, 1].filter (fun c => c ≠ causeRerun && c ≠ causeHost)) = 1 :: [])
    ∧ (let d := hubIn .inSync (fun p => { p with streamSilence := 3, statusSilence := 3 }); let p := d.pair;
      hubOfPair d = true ∧ isSync p = true ∧ 3 ≤ p.streamSilence ∧ 3 ≤ p.statusSilence ∧ d.evt.store.length < 250)
    ∧ (let p := (hubIn .inSync (fun p => { p with peerUnfit := true })).pair; p.peerUnfit = true ∧ isFit p = true)
    ∧ (rst.pair.outranked = none
      ∧ ∀ st ∈ [PairSt.withdrawn, .active, .inSync], ∀ up,
        (hubIn st (fun p => { p with outranked := some 9, up := up })).pair.outranked = some 9)
    ∧ (let d := rendering rst; d.pwr.rendering = true ∧ rst.pwr.rendering = false)
    ∧ (rst.pair.thermalNow = false ∧ (inClk (fun k => { k with sysLocked := true }) rst).clk.sysLocked = true) := by decide

/-! ## Worked examples of the spec -/

theorem witness_FrameNumbersCompareModuloTwoTo32 :
    later (5 : BitVec 32) 0xFFFFFFFF = true ∧ earlier (0x80000000 : BitVec 32) 0 = true ∧ later (0x7FFFFFFF : BitVec 32) 0 = true := by
  decide
theorem witness_StateChangesRaiseTheirEvents : rst.clk.st ≠ .locked ∧ rst.clk.servo ≠ .hold ∧ rst.pair.st ≠ .unfit := by decide

/-- The Larkspur Velodrome (R20): at 1,700,000,000.25 s a frame begins, number 3,747,640,796. -/
theorem test_frame_number_of_a_time :
    BitVec.ofNat 32 (stepFnx { epoch := { secCur := 1700000000, nsCur := 250000000, secNext := 0, nsNext := 0 } } - 1)
      = 3747640796 := by decide +kernel

def osterlane (x y z : Int) : ObjState :=
  { motion := { law := .dist, x := x, y := y, z := z, gain := fOne }, params := { rRef := 10000, rMin := 1000 } }
def spk (x y z : Int) : Speaker := { x := x, y := y, z := z, gainTrim := fOne, laws := 0x81, zoneMask := 1 }
/-- Osterlane Stadium (R73): D = 3,925,098 and g = 0.36464 of OBJ3 at SPK8 at 20 °C. -/
theorem test_dist_law :
    let p := distLaw (geoK true (fint 20)) (spk (-16000) 40000 22000) (osterlane 1200 46000 1500);
    (delayOf 1024 0 p.2).1 = 3925098 ∧ dyRound (toDy (fmul p.1 (fint 100000))) = 36464 := by decide +kernel
/-- OBJ40 at SPK300 (R71): the delay is clamped at 24,536 samples with DLY_HIGH; with OBJ_BULK = 4,800 it is not. -/
theorem test_delay_clamp :
    let p := distLaw (geoK true (fint 20)) (spk 0 (-10000) 12000) (osterlane 0 80000 12000);
    delayOf 1024 0 p.2 = (12562432, false, true) ∧ (delayOf 1024 4800 p.2).2 = (false, false)
      ∧ (delayOf 1024 4800 p.2).1 / 512 = 20358 := by decide +kernel
/-- OBJ_BULK from 0 to 4,800 after several seconds (R92): HD = 19,776. -/
theorem test_held_depth : newHD 24576 16 24560 4800 = 19776 := by decide
/-- The Saltmarsh Festival (R110): OBJ0 and OBJ16 are granted, OBJ32 waits, and comes first in the next frame. -/
theorem test_scarf_grants :
    (grants 1024 [(0, false, 400), (16, false, 400), (32, false, 400)]).reverse = [0, 16]
    ∧ (grants 1024 [(0, false, 400), (16, false, 400), (32, true, 400)]).reverse = [32, 0] := by decide
/-- A drone at 1.398 samples per frame is a RAMP, one at 2.1 samples leaps (R103, R105). -/
theorem test_slew_limit :
    xpKind { rampXp with dc := 51200, dt := 50484 } = 4 ∧ xpKind { rampXp with dc := 51200, dt := 50124 } = 2 := by decide
/-- The Wendmoor Arena (R290): −6 dB relative on TRIM = 1.0 gives 0x3_F004_DCE8. -/
theorem test_trim_relative :
    let p := cmdP 0x200 [(0, 2), (3, 1), (8, 0xE8), (9, 0xDC), (10, 4), (11, 0xF0), (12, 3)] none;
    (outAt (applyCmd p none env0 (modOut 0 (fun o => { o with app := { o.app with trim := fOne } }) oneOut)).dev 0).app.trim
      = 0x3F004DCE8#36 := by decide +kernel
/-- The Halberd Pavilion (R331): with RL[2] = 8,000 the store goes to address 6,250 and A[4] becomes 3,251. -/
theorem test_ring_address :
    let r : CoreRegs := { pb := [(1, 0xA0A0)], rb := [(2, 3000)], rl := [(2, 8000)], a := [(4, 11250), (5, 6000)] };
    effAddr r 4 = some 6250 ∧ postMod r 4 11250 1 = 3251 ∧ effAddr r 5 = some 9000 ∧ postMod r 5 6000 1 = 6001 := by decide
/-- The Kestrelmoor Festival (R214, R215): T_c = 192 °C and T_m = 80 °C give PROT_MS = 0.04639. -/
theorem test_thermal_ceiling :
    let c : PchCfg := { re0 := f36Rat 56 10, t0 := fint 25, alpha := f36Rat 393 100000, rthC := f36Rat 12 10, tMax := fint 200
                        tMargin := fint 10, voutFs := f36Rat 1414 10 };
    dyRound (toDy (fmul (protMsOf c (fint 192) (fint 80)) (fint 100000))) = 4639
    ∧ dyRound (toDy (fmul (reHot c (fint 192)) (fint 10000))) = 92753 := by decide +kernel
/-- F36 (chapter 0, number formats): 1.0 is 0x3_F800_0000, and the largest magnitude saturates. -/
theorem test_f36 : fOne = 0x3F8000000#36 ∧ fadd fOne fOne = fint 2 ∧ fmul (fint 3) (fint (-5)) = fint (-15)
    ∧ fdiv (fint 1) (fint 4) = f36Rat 1 4 ∧ fsqrt (fint 81) = fint 9 := by decide

/-- R448: 60 frames of 4,096 MCLK cycles at the nominal ratio 48.828125 have word 0; 12 CLK_CORE cycles more give
(12,000,000 / 12,000,012 − 1) × 2^40 = −1,099,510.53, rounded. The latest tick does not count. -/
theorem test_reference_word :
    refWord { periods := List.replicate 61 (200000, 4096) } = 0
    ∧ refWord { periods := (300000, 4096) :: (200012, 4096) :: List.replicate 59 (200000, 4096) } = -1099511 := by
  decide +kernel

/-- R449, R457: a loss of AIN0 while it is the media reference takes the clock to HOLDOVER. -/
theorem test_ain0_reference :
    (refOfAin 0 (envOf {} State.reset) (inClk (fun k => { k with ref := 2, st := .locked }) State.reset.dev)).clk.st
      = .holdover := by
  decide +kernel

end Sys2Proof.Tests
end

section
/-! ## The comparison of frame numbers (R18) -/
namespace Sys2Proof.Machine

/-- R18 decides equality on d = (a - b) mod 2^32; the model compares the words, which is the same. -/
theorem eq_iff_frameDiff_eq_zero (a b : BitVec 32) : a = b ↔ (a - b).toNat = 0 := by
  have ha := a.isLt
  have hb := b.isLt
  rw [← BitVec.toNat_inj, BitVec.toNat_sub]
  omega

/-- The model's test `a ≠ b` is the lower bound 1 ≤ d of R18. -/
theorem later_iff_frameDiff (a b : BitVec 32) :
    later a b = true ↔ 1 ≤ (a - b).toNat ∧ (a - b).toNat < 2 ^ 31 := by
  simp only [later, Bool.and_eq_true, decide_eq_true_eq, ne_eq, eq_iff_frameDiff_eq_zero a b]
  omega

/-- The "otherwise" of R18. -/
theorem earlier_iff_not_later_and_ne (a b : BitVec 32) :
    earlier a b = true ↔ ¬ later a b = true ∧ a ≠ b := by
  simp only [earlier, Bool.and_eq_true, decide_eq_true_eq, Bool.not_eq_true', Bool.not_eq_true, and_comm]

/-- Settles O1: the three outcomes of R18, each by its lemma on the difference of the two numbers. -/
theorem frameNumbersCompareModuloTwoTo32 : Obligations.FrameNumbersCompareModuloTwoTo32 := by
  intro a b
  refine ⟨later_iff_frameDiff a b, eq_iff_frameDiff_eq_zero a b, ?_⟩
  rw [earlier_iff_not_later_and_ne, later_iff_frameDiff, ne_eq, eq_iff_frameDiff_eq_zero]

end Sys2Proof.Machine
end

section
/-! ## The RAMP crosspoint (R105, R106)

The law of R106 has a name here; the floor puts N × δ(i) within N of the exact line D_CUR + ΔD × (i + 1) / N, and every
claim on the slope follows from that. -/
namespace Sys2Proof.Machine

/-- δ(i) of R106, in a frame of `n` samples. -/
def rampDelay (n : Nat) (a : XpIn) (i : Nat) : Int :=
  (a.dc : Int) + Int.fdiv (((a.dt : Int) - a.dc) * ((i : Int) + 1)) n

/-- The floor of R106: N × (δ(i) − D_CUR) is the greatest multiple of N not above ΔD × (i + 1). -/
theorem mul_rampDelay_sub_bounds {n : Nat} (hn : 0 < n) (a : XpIn) (i : Nat) :
    (n : Int) * (rampDelay n a i - a.dc) ≤ ((a.dt : Int) - a.dc) * (i + 1)
    ∧ ((a.dt : Int) - a.dc) * (i + 1) < n * (rampDelay n a i - a.dc) + n := by
  have hpos : (0 : Int) < n := Int.natCast_pos.mpr hn
  rw [rampDelay, Int.add_comm, Int.add_sub_cancel, Int.fdiv_eq_ediv_of_nonneg _ (Int.le_of_lt hpos)]
  exact ⟨Int.mul_ediv_self_le (Int.ne_of_gt hpos), Int.lt_mul_ediv_self_add hpos⟩

/-- δ(N − 1) = D_T: at the last sample the quotient is exact. -/
theorem rampDelay_last {n : Nat} (hn : 0 < n) (a : XpIn) : rampDelay n a (n - 1) = a.dt := by
  have hlast : ((n - 1 : Nat) : Int) + 1 = n := by omega
  rw [rampDelay, hlast, Int.mul_fdiv_cancel _ (by omega), Int.add_comm, Int.sub_add_cancel]

/-- Two samples in a row: the exact line moves by ΔD / N, and each floor takes less than one unit off. -/
theorem mul_rampDelay_step_bounds {n : Nat} (hn : 0 < n) (a : XpIn) (i : Nat) :
    (a.dt : Int) - a.dc < n * (rampDelay n a (i + 1) - rampDelay n a i + 1)
    ∧ n * (rampDelay n a (i + 1) - rampDelay n a i - 1) < (a.dt : Int) - a.dc := by
  obtain ⟨lowHere, highHere⟩ := mul_rampDelay_sub_bounds hn a i
  obtain ⟨lowNext, highNext⟩ := mul_rampDelay_sub_bounds hn a (i + 1)
  simp only [Int.natCast_succ, Int.mul_add, Int.mul_sub, Int.mul_one] at lowHere highHere lowNext highNext ⊢
  constructor <;> omega

/-- The first sample moves on from D_CUR by the slope, rounded down. -/
theorem mul_rampDelay_first_bounds {n : Nat} (hn : 0 < n) (a : XpIn) :
    (a.dt : Int) - a.dc < n * (rampDelay n a 0 - a.dc + 1)
    ∧ n * (rampDelay n a 0 - a.dc) ≤ (a.dt : Int) - a.dc := by
  obtain ⟨low, high⟩ := mul_rampDelay_sub_bounds hn a 0
  simp only [Int.natCast_zero, Int.zero_add, Int.mul_add, Int.mul_sub, Int.mul_one] at low high ⊢
  constructor <;> omega

/-- A fold that appends one value per element to its first component, whatever it does to its second. -/
theorem foldl_fst_eq_append_map {α β γ : Type} (f : α → β) (g : γ → α → γ) (l : List α) (s : List β × γ) :
    (l.foldl (fun acc x => (acc.1 ++ [f x], g acc.2 x)) s).1 = s.1 ++ l.map f := by
  induction l generalizing s with
  | nil => rw [List.foldl_nil, List.map_nil, List.append_nil]
  | cons x xs ih => rw [List.foldl_cons, ih, List.map_cons, List.append_assoc, List.singleton_append]

/-- A RAMP crosspoint has one reading per sample, at the delay ramp, times g(i) (R106, R107). -/
theorem renderXp_adds_of_ramp (n : Nat) (slew : F36) (tap : Int → Tap) (granted : Bool) {a : XpIn} (xp : XPoint)
    (hk : xpKind a = 4) :
    (renderXp n slew tap granted a xp).adds = [(List.range n).map (fun i =>
      fmul (reading tap (rampDelay n a i) i).1 (xpGain n (xpCosine slew a) a.gc a.gt i))] := by
  simp only [renderXp, hk]
  exact congrArg (fun frame => [frame]) (foldl_fst_eq_append_map
    (fun i => fmul (reading tap (rampDelay n a i) i).1 (xpGain n (xpCosine slew a) a.gc a.gt i))
    (fun flags i => (flags.1 || (reading tap (rampDelay n a i) i).2.1,
      joinBad flags.2 (reading tap (rampDelay n a i) i).2.2)) (List.range n) ([], false, []))

/-- What the frame of a RAMP crosspoint leaves of its state (R105, "End of frame"). -/
theorem renderXp_xp_of_ramp (n : Nat) (slew : F36) (tap : Int → Tap) (granted : Bool) {a : XpIn} (xp : XPoint)
    (hk : xpKind a = 4) :
    (renderXp n slew tap granted a xp).xp =
      { xp with dCur := a.dt, gCur := a.gt, kind := 4, dLast := a.dt, gLast := a.gt } := by
  simp only [renderXp, hk]

/-- Settles O45: the frame and the end state of `renderXp` at a RAMP, and the bounds of the floor of R106. -/
theorem delayRampEndsOnItsTarget : Obligations.DelayRampEndsOnItsTarget := by
  intro n slew tap granted a xp hn hk
  have hxp := renderXp_xp_of_ramp n slew tap granted xp hk
  exact ⟨renderXp_adds_of_ramp n slew tap granted xp hk, rampDelay_last hn a, mul_rampDelay_step_bounds hn a,
    mul_rampDelay_first_bounds hn a, congrArg XPoint.dCur hxp, congrArg XPoint.gCur hxp, congrArg XPoint.kind hxp⟩

end Sys2Proof.Machine
end
